-- ==== Sys2Proof/Word.lean ====
section
/-! DEFINITION. The bit-vector widths of the machine (spec/00_scope.md R7, spec/30_encoding.md R55). -/

namespace Sys2Proof

/-- A 32-bit pattern: a value, a delta, a counter, a configuration register, a PD slot (`VALUE_W`, `COUNT_W`, R7). -/
abbrev Word := BitVec 32

/-- A byte of `output_buffer`, of the payload or of the response channel. -/
abbrev Byte := BitVec 8

/-- A command word (`CMD_W` = 64, R7, R55). -/
abbrev CommandWord := BitVec 64

end Sys2Proof
end

