-- ==== Sys2Proof/Machine/Operands.lean ====
section
/-! DEFINITION. Operand forms: the fields of a command word (spec/30_encoding.md R55, R56) and the PD indices that the
rules compute, since no command carries an address (spec/20_memory.md R35, R36). -/

namespace Sys2Proof.Machine

/-- Field `op`, bits 63:56 (R55). -/
def opField (w : CommandWord) : BitVec 8 := w.extractLsb' 56 8

/-- Field `b`, bits 55:32 (R55). -/
def bField (w : CommandWord) : BitVec 24 := w.extractLsb' 32 24

/-- Field `a`, bits 31:0 (R55). -/
def aField (w : CommandWord) : BitVec 32 := w.extractLsb' 0 32

/-- CONFIG's `block_size_in_values = zext_32(a)` (R56). -/
def blockSizeOperand (w : CommandWord) : Word := aField w

/-- CONFIG's `mini_block_count = zext_32(b)` (R56). -/
def miniBlockCountOperand (w : CommandWord) : Word := (bField w).setWidth 32

/-- WRITE's `v = a` (R56). -/
def valueOperand (w : CommandWord) : Word := aField w

/-- The word with these three fields (R55). -/
def assembleWord (op : BitVec 8) (b : BitVec 24) (a : BitVec 32) : CommandWord := op ++ (b ++ a)

/-- First slot of mini-block `i` (spec/42_flush_block.md R85). -/
def miniBlockBase (mbs i : Nat) : Nat := i * mbs

/-- One past the last VALID slot of mini-block `i` when `n` deltas are pending: `min((i+1)*MBS, n)` (R85). -/
def miniBlockValidEnd (n mbs i : Nat) : Nat := min ((i + 1) * mbs) n

/-- First slot of group `g` of mini-block `i`: `i*MBS + 8*g` (spec/42_flush_block.md R87). -/
def groupBase (mbs i g : Nat) : Nat := i * mbs + 8 * g

end Sys2Proof.Machine
end

