-- ==== Sys2Proof/Syntax.lean ====
section
/-! DEFINITION. The four commands of spec/30_encoding.md R53, one constructor per row of spec/opcode_table.json. -/

namespace Sys2Proof

/-- A command, with its operands as spec/30_encoding.md R56 assembles them. -/
inductive Instr where
  /-- `CONFIG bs, mc` (spec/40_config.md R69): both operands u32, `mc` below 2^24. -/
  | config (bs mc : Word)
  /-- `WRITE v` (spec/41_write.md R73): the 32-bit pattern of an i32. -/
  | write (v : Word)
  /-- `FINISH` (spec/45_finish_reset.md R106). -/
  | finish
  /-- `RESET` (spec/45_finish_reset.md R110). -/
  | reset
deriving DecidableEq, Repr

end Sys2Proof
end

