-- ==== Sys2Proof/WellFormed.lean ====
section
/-! DEFINITION. Which commands the 64-bit word can express (spec/30_encoding.md R56). -/

namespace Sys2Proof

/-- The operands fit their fields: the one operand narrower than its type is CONFIG's `mc`, a u24 zero-extended (R56, log 15). -/
def Instr.wellFormed : Instr → Bool
  | .config _ mc => decide (mc.toNat < 2 ^ 24)
  | .write _ => true
  | .finish => true
  | .reset => true

end Sys2Proof
end

