-- ==== Sys2Proof/Decode.lean ====
section
/-! DEFINITION. The decoder of spec/30_encoding.md R57 to R59, total on every 64-bit word, and the encoder. -/

namespace Sys2Proof

open Machine

/-- Why a word is reserved (R58). -/
inductive Reserved where
  /-- `op` is 0x00 or 0x05 .. 0xFF. -/
  | opcode
  /-- `op` is 0x02 .. 0x04 and the must-be-zero field `b` is not zero. -/
  | fieldB
  /-- `op` is 0x03 or 0x04, `b` is zero and the must-be-zero field `a` is not. -/
  | fieldA
deriving DecidableEq, Repr

/-- The decoder's answer: `{CONFIG(bs, mc), WRITE(v), FINISH, RESET, RESERVED}` (R59). -/
inductive Decoded where
  | command (i : Instr)
  | reserved (r : Reserved)
deriving DecidableEq, Repr

/-- A command without operands: both fields must be zero (R56). -/
def decodeNullary (w : CommandWord) (i : Instr) : Decoded :=
  if bField w ≠ 0 then .reserved .fieldB
  else if aField w ≠ 0 then .reserved .fieldA
  else .command i

/-- The decoder (R57, R58): exactly one answer for every word (R59). -/
def decode (w : CommandWord) : Decoded :=
  if opField w = 0x01#8 then .command (.config (blockSizeOperand w) (miniBlockCountOperand w))
  else if opField w = 0x02#8 then
    if bField w ≠ 0 then .reserved .fieldB else .command (.write (valueOperand w))
  else if opField w = 0x03#8 then decodeNullary w .finish
  else if opField w = 0x04#8 then decodeNullary w .reset
  else .reserved .opcode

/-- The command a decoded word stands for, if any. -/
def Decoded.command? : Decoded → Option Instr
  | .command i => some i
  | .reserved _ => none

/-- The opcode of R57's table. -/
def opcode : Instr → BitVec 8
  | .config _ _ => 0x01#8
  | .write _ => 0x02#8
  | .finish => 0x03#8
  | .reset => 0x04#8

/-- The word of a well-formed command, by R55 to R57 (the `word` column of R66). Of an ill-formed CONFIG the low 24 bits
of `mc` are kept. -/
def encode : Instr → CommandWord
  | .config bs mc => assembleWord (opcode (.config bs mc)) (mc.setWidth 24) bs
  | .write v => assembleWord (opcode (.write v)) 0 v
  | .finish => assembleWord (opcode .finish) 0 0
  | .reset => assembleWord (opcode .reset) 0 0

/-- What the decoder reads from an instruction whose bits are `w`, of which the table gives `nbits` (at most the 64 of a
command word, the bits above them zero); none where the word is reserved or is no command word (log 18). -/
def decodeTableWord (nbits w : Nat) : Option Instr :=
  if nbits ≤ 64 ∧ w < 2 ^ nbits then (decode (BitVec.ofNat 64 w)).command? else none

end Sys2Proof
end

