-- ==== Sys2Proof/Config.lean ====
section
/-! DEFINITION. What an implementation fixes (spec/00_scope.md R8) and the free values of what the spec leaves
unspecified (spec/10_state.md R29, spec/60_exceptions.md R124). No constant here has a body: nothing proves a value of one. -/

namespace Sys2Proof

/-- The slots a `pending_deltas` memory may have beyond the 128 that every instance has: R8 bounds the depth
`MAX_BLOCK_SIZE` by 128 ≤ depth < 2^32, so the depth is 128 + one of these. -/
abbrev ExtraSlots := Fin 4294967168

namespace Config

/-- `MAX_BLOCK_SIZE` - 128 of the instance (R8, log 1). Uninterpreted. -/
opaque extraSlots : ExtraSlots

/-- `OUT_CAP` of the instance, `none` for unbounded (R8, log 1). Uninterpreted. -/
opaque outCap : Option Nat

/-- The 32-bit pattern found in unspecified register number `which` at draw `draw` (log 4, log 5). Uninterpreted. -/
opaque freeWord (draw which : Nat) : Word

/-- The pattern of a PD slot that nothing has written since draw `draw` (log 3). Uninterpreted. -/
opaque freeSlot (draw slot : Nat) : Word

/-- The content of `output_buffer` after a capacity fault at draw `draw` (log 5). Uninterpreted. -/
opaque freeBytes (draw : Nat) : List Byte

end Config

end Sys2Proof
end

