-- ==== Sys2Proof/Machine/State.lean ====
section
/-! DEFINITION. The state of the block (spec/10_state.md R13 to R29), what the channels hold between transfers
(spec/30_encoding.md R54), and the state after hard reset (spec/70_reset_and_hazards.md R133). -/

namespace Sys2Proof.Machine

/-- The `pending_deltas` memory (spec/10_state.md R18): 32-bit slots by index (spec/20_memory.md R36, log 12).
`cells` lists, by strictly rising slot number, the slots that differ from what an unlisted slot reads as
(`Memory.unlisted`, log 3). -/
structure Memory where
  /-- The listed slots. -/
  cells : List (Nat × Word)
  /-- Slots below this were zero-filled by CONFIG or RESET since the last draw. -/
  zeroed : Nat
  /-- Which draw of free values the slots that nothing has written hold. -/
  draw : Nat
deriving DecidableEq, Repr

/-- One transfer on the response channel (spec/30_encoding.md R54, R62). -/
structure RspBeat where
  /-- `rsp_status[7:0]` -/
  status : Byte
  /-- `rsp_has_payload` -/
  hasPayload : Bool
deriving DecidableEq, Repr

/-- One transfer on the payload channel (spec/30_encoding.md R54, R64). -/
structure PayBeat where
  /-- `pay_data[7:0]` -/
  data : Byte
  /-- `pay_last` -/
  last : Bool
deriving DecidableEq, Repr

/-- What the host does (spec/70_reset_and_hazards.md R149, log 7, log 8). -/
inductive HostInput where
  /-- It presents a command word. -/
  | command (w : CommandWord)
  /-- It takes one beat of a response or payload that the block offers. -/
  | takeBeat
  /-- It asserts `rst_n` (R133). -/
  | hardReset
deriving DecidableEq, Repr

/-- Where the machine stops. The spec's own faults (spec/60_exceptions.md R116) are NOT here: `raise` takes them, as a
next state. -/
inductive Fault where
  /-- Raised by WRITE and FLUSH_BLOCK on a PD index outside `0 .. BS-1`, which spec/00_scope.md R11 requires and
  spec/20_memory.md R36 says no rule forms. No run reaches it. Safe (log 10). -/
  | pdIndex
  /-- Raised by FLUSH_BLOCK when `MBS` is 0, where `ceil_div` is not defined (spec/00_scope.md R10, spec/40_config.md R71).
  No run reaches it. Safe (log 10). -/
  | zeroMiniBlock
deriving DecidableEq, Repr

/-- Where the model has no meaning. -/
inductive Refusal where
  /-- An instruction whose meaning is not written yet: none of the four. Safe. -/
  | notModelled (mnemonic : String)
deriving DecidableEq, Repr

/-- The whole state. Field names follow spec/10_state.md R13. -/
structure State where
  /-- `MAX_BLOCK_SIZE` - 128, a parameter of the instance (spec/00_scope.md R8, log 1). No step changes it. -/
  extraSlots : ExtraSlots
  /-- `OUT_CAP`, a parameter of the instance, `none` for unbounded (R8, log 1). No step changes it. -/
  outCap : Option Nat
  /-- `block_size_in_values`, `BS` (R14) -/
  blockSize : Word
  /-- `mini_block_count`, `MC` (R14) -/
  miniBlockCount : Word
  /-- `mini_block_size_in_values`, `MBS` (R14) -/
  miniBlockSize : Word
  /-- `total_value_count` (R15) -/
  totalValueCount : Word
  /-- `first_value` (R16) -/
  firstValue : Word
  /-- `previous_value` (R17) -/
  previousValue : Word
  /-- `pending_deltas`, `PD` (R18) -/
  pd : Memory
  /-- `pending_count` (R19) -/
  pendingCount : Word
  /-- `min_delta_in_block` (R20) -/
  minDelta : Word
  /-- `output_buffer`, `OUT` (R22) -/
  outputBuffer : List Byte
  /-- flag `configured` (R23) -/
  configured : Bool
  /-- flag `finalized` (R23) -/
  finalized : Bool
  /-- flag `err` (R23), 0 for no fault recorded -/
  err : BitVec 3
  /-- Response beats the host has not taken (spec/30_encoding.md R54, R67). -/
  rspQueue : List RspBeat
  /-- Payload beats the host has not taken (R54, R64, R67). -/
  payQueue : List PayBeat
  /-- The model's own: the response beats the host has taken, oldest first (log 8). -/
  rspTaken : List RspBeat
  /-- The model's own: the payload beats the host has taken, oldest first (log 8). -/
  payTaken : List PayBeat
  /-- The model's own: what the host does next, oldest first (log 7). -/
  inputs : List HostInput
  /-- The model's own: the number of the next draw of free values (log 6). -/
  draws : Nat
deriving DecidableEq, Repr

/-- The block after hard reset, the first column of spec/10_state.md R29 and spec/70_reset_and_hazards.md R133. The three
configuration registers, unspecified there, are named 0 (log 2); every PD slot is a free value (log 3). -/
def State.reset : State where
  extraSlots := Config.extraSlots
  outCap := Config.outCap
  blockSize := 0
  miniBlockCount := 0
  miniBlockSize := 0
  totalValueCount := 0
  firstValue := 0
  previousValue := 0
  pd := { cells := [], zeroed := 0, draw := 0 }
  pendingCount := 0
  minDelta := 0x7FFFFFFF#32
  outputBuffer := []
  configured := false
  finalized := false
  err := 0
  rspQueue := []
  payQueue := []
  rspTaken := []
  payTaken := []
  inputs := []
  draws := 1

end Sys2Proof.Machine
end

