-- ==== Sys2Proof/Machine/Flags.lean ====
section
/-! DEFINITION. Status flags, fault codes, phase, status byte (spec/10_state.md R23 to R26, spec/60_exceptions.md R116)
and which command runs in which phase (R127). -/

namespace Sys2Proof.Machine

/-- The faults of spec/60_exceptions.md R116. -/
inductive FaultCode where
  /-- ERR_CONFIG (R117) -/
  | config
  /-- ERR_RESOURCE (R118) -/
  | resource
  /-- ERR_PROTOCOL (R119, R127) -/
  | protocol
  /-- ERR_ILLEGAL (R119) -/
  | illegal
deriving DecidableEq, Repr

/-- The value written to `err` (R116). -/
def FaultCode.code : FaultCode → BitVec 3
  | .config => 1#3
  | .resource => 2#3
  | .protocol => 3#3
  | .illegal => 4#3

/-- The phases of spec/10_state.md R26. -/
inductive Phase where
  | unconfigured
  | opened
  | finalized
  | faulted
deriving DecidableEq, Repr

/-- The phase is a function of the flags (R26). -/
def State.phase (s : State) : Phase :=
  if s.err ≠ 0 then .faulted
  else if s.configured = false then .unconfigured
  else if s.finalized = false then .opened
  else .finalized

/-- The status byte `STATUS` (R24): bits 7:5 zero, bit 4 `finalized`, bit 3 `configured`, bits 2:0 `err`. -/
def State.status (s : State) : Byte :=
  0#3 ++ (BitVec.ofBool s.finalized ++ (BitVec.ofBool s.configured ++ s.err))

/-- The cells "run" of R127's table. -/
def runsIn : Instr → Phase → Bool
  | .config _ _, p => p == .unconfigured
  | .write _, p => p == .opened
  | .finish, p => p == .opened || p == .finalized
  | .reset, p => p == .opened || p == .finalized

end Sys2Proof.Machine
end

