-- ==== Sys2Proof/Machine/Ops.lean ====
section
/-! DEFINITION. The shared operations: arithmetic of spec/00_scope.md R10, the PD memory, the channels, `raise` (taking a
fault, spec/60_exceptions.md R120) with hard reset, the only way back (R125), beside it. -/

namespace Sys2Proof.Machine

/-- What a command, or a step, ends in. -/
abbrev Result := Host.Outcome State Fault Refusal

/-! ### Arithmetic (spec/00_scope.md R10) -/

/-- The pattern of an unset minimum (spec/10_state.md R20). -/
def unsetMin : Word := 0x7FFFFFFF#32

/-- `smin(a, b)`: the smaller of two i32 values. -/
def smin (a b : Word) : Word := if a.slt b then a else b

/-- `ceil_div(a, b)` for `b > 0`: the least `q` with `q * b ≥ a`. -/
def ceilDiv (a b : Nat) : Nat := (a + b - 1) / b

/-- `bitlen(x)`: 0 for 0, else the position of the most significant set bit plus 1 (spec/42_flush_block.md R84). -/
def bitlen (x : Word) : Nat := if x = 0 then 0 else x.toNat.log2 + 1

/-! ### The PD memory (spec/10_state.md R18, spec/20_memory.md R36) -/

/-- What a slot that is not listed reads as: 0 where CONFIG or RESET zero-filled, else a free value (log 3). -/
def Memory.unlisted (m : Memory) (i : Nat) : Word :=
  if i < m.zeroed then 0 else Config.freeSlot m.draw i

/-- The value listed for slot `i`. -/
def lookupCell (i : Nat) : List (Nat × Word) → Option Word
  | [] => none
  | c :: cs => if i = c.1 then some c.2 else lookupCell i cs

/-- `PD[i]`: the last pattern written to the slot (R36). -/
def Memory.read (m : Memory) (i : Nat) : Word :=
  (lookupCell i m.cells).getD (m.unlisted i)

/-- Lists `v` for slot `i`, keeping slot numbers rising. -/
def putCell (i : Nat) (v : Word) : List (Nat × Word) → List (Nat × Word)
  | [] => [(i, v)]
  | c :: cs =>
    if i < c.1 then (i, v) :: c :: cs
    else if i = c.1 then (i, v) :: cs
    else c :: putCell i v cs

/-- `PD[i] <- v`. A slot that now equals what it would read unlisted is not listed. -/
def Memory.write (m : Memory) (i : Nat) (v : Word) : Memory :=
  if v = m.unlisted i then { m with cells := m.cells.filter fun c => c.1 ≠ i }
  else { m with cells := putCell i v m.cells }

/-- `for j in 0 .. n-1: PD[j] <- 0` (spec/40_config.md R69, spec/45_finish_reset.md R110). -/
def Memory.zeroFill (m : Memory) (n : Nat) : Memory :=
  { m with cells := m.cells.filter fun c => n ≤ c.1, zeroed := max m.zeroed n }

/-- The memory after draw `d`: every slot unspecified (spec/10_state.md R29, log 3). -/
def Memory.unspecified (d : Nat) : Memory := { cells := [], zeroed := 0, draw := d }

/-- The canonical form: slot numbers strictly rise, and no listed slot equals what it would read unlisted. -/
abbrev Memory.wf (m : Memory) : Prop :=
  m.cells.Pairwise (fun a b => a.1 < b.1) ∧ ∀ c ∈ m.cells, c.2 ≠ m.unlisted c.1

/-! ### Instance parameters (spec/00_scope.md R8) -/

/-- `MAX_BLOCK_SIZE`. -/
def State.maxBlockSize (s : State) : Nat := 128 + s.extraSlots.val

/-- `len` bytes fit in `output_buffer` (spec/42_flush_block.md R90): always, when `OUT_CAP` is unbounded. -/
def fitsOut (cap : Option Nat) (len : Nat) : Bool :=
  match cap with
  | none => true
  | some c => decide (len ≤ c)

/-! ### Channels (spec/30_encoding.md R54, R62, R64, R67) -/

/-- The transfers that carry these payload bytes: in order, `pay_last` with the last byte only (R64). -/
def payBeats : List Byte → List PayBeat
  | [] => []
  | [b] => [{ data := b, last := true }]
  | b :: bs => { data := b, last := false } :: payBeats bs

/-- The response with the status byte as it is now, and its payload if it has one (R62). -/
def State.withResponse (s : State) (payload : Option (List Byte)) : State :=
  { s with
    rspQueue := s.rspQueue ++ [{ status := s.status, hasPayload := payload.isSome }]
    payQueue := s.payQueue ++ payBeats (payload.getD []) }

/-- `respond(STATUS)` (spec/00_scope.md R11): the command ends. -/
def respond (s : State) : Result := .next (s.withResponse none)

/-- `respond(STATUS, payload)` (spec/00_scope.md R11): the command ends. -/
def respondWith (payload : List Byte) (s : State) : Result := .next (s.withResponse (some payload))

/-- The host has taken the response and the whole payload of every command before: the block accepts a word (R67). -/
def State.drained (s : State) : Bool := s.rspQueue.isEmpty && s.payQueue.isEmpty

/-- The host takes one beat, of the response first (log 8); nothing changes when none is offered. -/
def State.transfer (s : State) : State :=
  match s.rspQueue, s.payQueue with
  | r :: rs, _ => { s with rspQueue := rs, rspTaken := s.rspTaken ++ [r] }
  | [], p :: ps => { s with payQueue := ps, payTaken := s.payTaken ++ [p] }
  | [], [] => s

/-- The host takes every beat the block offers. -/
def State.drain (s : State) : State :=
  { s with
    rspQueue := [], rspTaken := s.rspTaken ++ s.rspQueue
    payQueue := [], payTaken := s.payTaken ++ s.payQueue }

/-! ### Taking a fault, and hard reset -/

/-- `err <- code` (spec/60_exceptions.md R120). -/
def State.withErr (s : State) (c : FaultCode) : State := { s with err := c.code }

/-- `raise Fault(code)`: `err <- code`, the command ends, its response is the status byte with the new `err` and no
payload; nothing else changes (spec/60_exceptions.md R120). -/
def raise (c : FaultCode) (s : State) : Result := respond (s.withErr c)

/-- A command in phase FAULT: no state changes and the response is the unchanged status byte (spec/60_exceptions.md R121). -/
def ignore (s : State) : Result := respond s

/-- The order of spec/60_exceptions.md R122 for a decoded command: ignored in phase FAULT, else ERR_PROTOCOL where
R127's table does not let it run, else its own meaning. -/
def guarded (i : Instr) (run : State → Result) (s : State) : Result :=
  if s.phase = .faulted then ignore s
  else if runsIn i s.phase then run s
  else raise .protocol s

/-- A reserved word (spec/30_encoding.md R58): ERR_ILLEGAL, but in phase FAULT ignored (spec/60_exceptions.md R122, R127). -/
def reservedWord (s : State) : Result :=
  if s.phase = .faulted then ignore s else raise .illegal s

/-- Hard reset (spec/70_reset_and_hazards.md R133): the only event that clears `err` and `configured`. The configuration
registers and every PD slot become free values (log 4); an untaken response or payload is abandoned (log 11). -/
def State.hardReset (s : State) : State :=
  { s with
    blockSize := Config.freeWord s.draws 0
    miniBlockCount := Config.freeWord s.draws 1
    miniBlockSize := Config.freeWord s.draws 2
    totalValueCount := 0
    firstValue := 0
    previousValue := 0
    pd := Memory.unspecified s.draws
    pendingCount := 0
    minDelta := unsetMin
    outputBuffer := []
    configured := false
    finalized := false
    err := 0
    rspQueue := []
    payQueue := []
    draws := s.draws + 1 }

/-! ### Whole-page updates -/

/-- What CONFIG and RESET both clear, `PD` over the current `0 .. BS-1` (spec/10_state.md R29, spec/45_finish_reset.md R110). -/
def State.clearPage (s : State) : State :=
  { s with
    totalValueCount := 0
    pendingCount := 0
    minDelta := unsetMin
    outputBuffer := []
    firstValue := 0
    previousValue := 0
    pd := s.pd.zeroFill s.blockSize.toNat
    finalized := false }

/-- The data state after a capacity ERR_RESOURCE is unspecified (spec/60_exceptions.md R124): free values, of which
`output_buffer` keeps within `OUT_CAP` (spec/10_state.md R22, log 5). Flags and configuration stay. -/
def State.loseData (s : State) : State :=
  { s with
    totalValueCount := Config.freeWord s.draws 0
    firstValue := Config.freeWord s.draws 1
    previousValue := Config.freeWord s.draws 2
    pd := Memory.unspecified s.draws
    pendingCount := Config.freeWord s.draws 3
    minDelta := Config.freeWord s.draws 4
    outputBuffer := (Config.freeBytes s.draws).take (s.outCap.getD 0)
    draws := s.draws + 1 }

end Sys2Proof.Machine
end

