-- ==== Sys2Proof/Machine/Configure.lean ====
section
/-! DEFINITION. CONFIG (spec/40_config.md R69 to R72). -/

namespace Sys2Proof.Machine

/-- `valid(bs, mc)` (R70) for an instance of depth `128 + extra`. That `bs ≤ 128` implies `bs ≤ MAX_BLOCK_SIZE` is
written out, so that the check of a block of 128 evaluates without knowing the depth. -/
def validConfig (extra : ExtraSlots) (bs mc : Nat) : Bool :=
  decide (0 < bs ∧ bs % 128 = 0 ∧ (bs ≤ 128 ∨ bs ≤ 128 + extra.val) ∧ 0 < mc ∧ bs % mc = 0 ∧ bs / mc % 8 = 0)

/-- The configuration registers (R69); the quotient is exact (R71). -/
def State.withConfig (s : State) (bs mc : Word) : State :=
  { s with
    blockSize := bs
    miniBlockCount := mc
    miniBlockSize := bs / mc
    configured := true }

/-- CONFIG's pseudocode past the phase tests (R69). -/
def configure (bs mc : Word) (s : State) : Result :=
  if validConfig s.extraSlots bs.toNat mc.toNat then respond (s.withConfig bs mc).clearPage
  else raise .config s

/-- CONFIG (R69). -/
def execConfig (bs mc : Word) (s : State) : Result :=
  guarded (.config bs mc) (configure bs mc) s

end Sys2Proof.Machine
end

