-- ==== Sys2Proof/Machine/BitPack.lean ====
section
/-! DEFINITION. PACK8 (spec/43_bitpack.md R93 to R97): one function with the width as a run-time operand. -/

namespace Sys2Proof.Machine

/-- The number `f[0] + f[1]*2^w + f[2]*2^(2w) + ...` of the lanes' low `w` bits, lane 0 least significant (R93, R95). -/
def packFields (w : Nat) : List Word → Nat
  | [] => 0
  | v :: vs => v.toNat % 2 ^ w + 2 ^ w * packFields w vs

/-- The `k` low bytes of `g`, least significant first (R93). -/
def leBytes : Nat → Nat → List Byte
  | 0, _ => []
  | k + 1, g => BitVec.ofNat 8 g :: leBytes k (g / 256)

/-- `PACK8(w, v0, ..., v7)`: exactly `w` bytes (R93). -/
def pack8 (w : Nat) (v0 v1 v2 v3 v4 v5 v6 v7 : Word) : List Byte :=
  leBytes w (packFields w [v0, v1, v2, v3, v4, v5, v6, v7])

end Sys2Proof.Machine
end

