-- ==== Sys2Proof/Machine/Varint.lean ====
section
/-! DEFINITION. UVARINT32 and ZIGZAG32 (spec/44_varint.md R99 to R105; the byte format and the formula are the spec's
passages from general knowledge, log 13). -/

namespace Sys2Proof.Machine

/-- The loop of R99 with at most `k` + 1 bytes: low 7 bits first, bit 7 set on every byte but the last. -/
def uvarintLoop : Nat → Nat → List Byte
  | 0, x => [BitVec.ofNat 8 x]
  | k + 1, x =>
    if 128 ≤ x then BitVec.ofNat 8 (x % 128 + 128) :: uvarintLoop k (x / 128) else [BitVec.ofNat 8 x]

/-- `UVARINT32(x)`, 1 to 5 bytes (R99, R100). -/
def uvarint32 (x : Word) : List Byte := uvarintLoop 4 x.toNat

/-- `ZIGZAG32(x) = (x << 1) ^ (x >>s 31)` on 32 bits (R102). -/
def zigzag32 (x : Word) : Word := (x <<< 1) ^^^ x.sshiftRight 31

end Sys2Proof.Machine
end

