-- ==== Sys2Proof/Machine/Flush.lean ====
section
/-! DEFINITION. FLUSH_BLOCK (spec/42_flush_block.md R80 to R92), the internal operation of WRITE and FINISH. -/

namespace Sys2Proof.Machine

/-- Step 1 (R82): `PD[j] <- PD[j] -32 min` for `j` in `0 .. n-1`. -/
def Memory.subtractMin (min : Word) : Nat → Memory → Memory
  | 0, m => m
  | n + 1, m =>
    let done := m.subtractMin min n
    done.write n (done.read n - min)

/-- The OR of `k` slots from slot `lo` on: the accumulator of step 3 (R85). -/
def Memory.orSlots (m : Memory) (lo : Nat) : Nat → Word
  | 0 => 0
  | k + 1 => m.orSlots lo k ||| m.read (lo + k)

/-- `touched = ceil_div(n, MBS)` (R85). -/
def touched (n mbs : Nat) : Nat := ceilDiv n mbs

/-- `w[i]` (R85, R86): the bit-length of the OR of mini-block `i`'s valid slots, 0 for an untouched mini-block. -/
def miniBlockWidth (m : Memory) (n mbs i : Nat) : Nat :=
  if i < touched n mbs then
    bitlen (m.orSlots (miniBlockBase mbs i) (miniBlockValidEnd n mbs i - miniBlockBase mbs i))
  else 0

/-- Step 2 (R83): the block minimum, zig-zag and varint encoded. -/
def minBytes (min : Word) : List Byte := uvarint32 (zigzag32 min)

/-- Step 4 (R86): one byte per configured mini-block, in order. -/
def widthBytes (m : Memory) (n mc mbs : Nat) : List Byte :=
  (List.range mc).map fun i => BitVec.ofNat 8 (miniBlockWidth m n mbs i)

/-- Group `g` of mini-block `i` packed at width `w` (R87). -/
def packGroup (m : Memory) (w base : Nat) : List Byte :=
  pack8 w (m.read base) (m.read (base + 1)) (m.read (base + 2)) (m.read (base + 3))
    (m.read (base + 4)) (m.read (base + 5)) (m.read (base + 6)) (m.read (base + 7))

/-- All `MBS/8` groups of mini-block `i` (R87), pad slots among them (R88). -/
def packMiniBlock (m : Memory) (n mbs i : Nat) : List Byte :=
  (List.range (mbs / 8)).flatMap fun g => packGroup m (miniBlockWidth m n mbs i) (groupBase mbs i g)

/-- Step 5 (R87): the touched mini-blocks in order. -/
def packedBytes (m : Memory) (n mbs : Nat) : List Byte :=
  (List.range (touched n mbs)).flatMap fun i => packMiniBlock m n mbs i

/-- `L` of the capacity test (R80, R90; spec/20_memory.md R46). -/
def blockLength (min : Word) (m : Memory) (n mc mbs : Nat) : Nat :=
  (minBytes min).length + mc + mbs / 8 * ((List.range (touched n mbs)).map fun i => miniBlockWidth m n mbs i).sum

/-- The bytes of one block in the order of R91; `m` is PD after step 1. -/
def blockBytes (min : Word) (m : Memory) (n mc mbs : Nat) : List Byte :=
  minBytes min ++ widthBytes m n mc mbs ++ packedBytes m n mbs

/-- How FLUSH_BLOCK ends. -/
inductive FlushResult where
  /-- It ran to its end. -/
  | flushed (s : State)
  /-- The block does not fit (R90): `raise Fault(ERR_RESOURCE)` in this state. -/
  | exhausted (s : State)
  /-- A primitive's precondition is broken, in a state no run reaches (log 10). -/
  | broken (f : Fault)
deriving DecidableEq, Repr

/-- Step 6 (R89) with the block appended (spec/20_memory.md R40) and PD as step 1 left it. -/
def State.flushedWith (s : State) (m : Memory) (bytes : List Byte) : State :=
  { s with
    pd := m
    outputBuffer := s.outputBuffer ++ bytes
    minDelta := unsetMin
    pendingCount := 0 }

/-- FLUSH_BLOCK (R80). -/
def flushBlock (s : State) : FlushResult :=
  let n := s.pendingCount.toNat
  let mc := s.miniBlockCount.toNat
  let mbs := s.miniBlockSize.toNat
  if mbs = 0 then .broken .zeroMiniBlock
  else if s.blockSize.toNat < touched n mbs * mbs then .broken .pdIndex
  else
    let m := s.pd.subtractMin s.minDelta n
    if fitsOut s.outCap (s.outputBuffer.length + blockLength s.minDelta m n mc mbs) then
      .flushed (s.flushedWith m (blockBytes s.minDelta m n mc mbs))
    else .exhausted s.loseData

/-- `call FLUSH_BLOCK`, then the rest of the command (R80, spec/00_scope.md R11). -/
def FlushResult.andThen (r : FlushResult) (rest : State → Result) : Result :=
  match r with
  | .flushed s => rest s
  | .exhausted s => raise .resource s
  | .broken f => .fault f

end Sys2Proof.Machine
end

