-- ==== Sys2Proof/Machine/Page.lean ====
section
/-! DEFINITION. FINISH and RESET (spec/45_finish_reset.md R106 to R114). -/

namespace Sys2Proof.Machine

/-- The page header's four varints (R108, spec/44_varint.md R104, R105). -/
def pageHeader (s : State) : List Byte :=
  uvarint32 s.blockSize ++ uvarint32 s.miniBlockCount ++ uvarint32 s.totalValueCount ++ uvarint32 s.firstValue

/-- `PAYLOAD` (R108). -/
def payload (s : State) : List Byte := pageHeader s ++ s.outputBuffer

/-- `finalized <- 1` (R106). -/
def State.withFinalized (s : State) : State := { s with finalized := true }

/-- The end of a FINISH that ran: the flag, then the response with the payload (R106). -/
def closePage (s : State) : Result := respondWith (payload s.withFinalized) s.withFinalized

/-- FINISH's pseudocode past the phase tests (R106); in phase FINALIZED it only replays the payload (R107). -/
def finishPage (s : State) : Result :=
  if s.finalized then respondWith (payload s) s
  else if s.pendingCount ≠ 0 then (flushBlock s).andThen closePage
  else closePage s

/-- FINISH (R106). -/
def execFinish (s : State) : Result := guarded .finish finishPage s

/-- RESET (R110). -/
def execReset (s : State) : Result := guarded .reset (fun t => respond t.clearPage) s

end Sys2Proof.Machine
end

