-- ==== Sys2Proof/Machine/Write.lean ====
section
/-! DEFINITION. WRITE (spec/41_write.md R73 to R79). -/

namespace Sys2Proof.Machine

/-- The delta `v -32 previous_value` (R75). -/
def delta (s : State) (v : Word) : Word := v - s.previousValue

/-- The first value of a page (R74). -/
def State.recordFirst (s : State) (v : Word) : State :=
  { s with firstValue := v, previousValue := v, totalValueCount := 1 }

/-- A later value (R73): the delta goes to slot `pending_count`, the counts advance, the minimum is updated (R75 to R77). -/
def State.recordDelta (s : State) (v : Word) : State :=
  { s with
    previousValue := v
    pd := s.pd.write s.pendingCount.toNat (delta s v)
    pendingCount := s.pendingCount + 1
    minDelta := smin s.minDelta (delta s v)
    totalValueCount := s.totalValueCount + 1 }

/-- The flush trigger (R78): the test uses `pending_count` after the increment. -/
def closeBlock (s : State) : Result :=
  if s.pendingCount = s.blockSize then (flushBlock s).andThen respond else respond s

/-- WRITE's pseudocode past the phase tests (R73). -/
def acceptValue (v : Word) (s : State) : Result :=
  if s.totalValueCount = 0xFFFFFFFF#32 then raise .resource s
  else if s.totalValueCount = 0 then respond (s.recordFirst v)
  else if s.blockSize.toNat ≤ s.pendingCount.toNat then .fault .pdIndex
  else closeBlock (s.recordDelta v)

/-- WRITE (R73). -/
def execWrite (v : Word) (s : State) : Result :=
  guarded (.write v) (acceptValue v) s

end Sys2Proof.Machine
end

