-- ==== Sys2Proof/Machine/Dispatch.lean ====
section
/-! DEFINITION. One arm per command of spec/30_encoding.md R53. -/

namespace Sys2Proof.Machine

def exec (i : Instr) (s : State) : Host.Outcome State Fault Refusal :=
  match i with
  | .config bs mc => Sys2Proof.Machine.execConfig bs mc s
  | .write v => Sys2Proof.Machine.execWrite v s
  | .finish => Sys2Proof.Machine.execFinish s
  | .reset => Sys2Proof.Machine.execReset s

end Sys2Proof.Machine
end

