-- ==== Sys2Proof/Machine/Step.lean ====
section
/-! DEFINITION. One step: the next thing the host does (spec/30_encoding.md R67, spec/70_reset_and_hazards.md R149). -/

namespace Sys2Proof.Machine

/-- The block accepts a command word: decode, then run it (spec/30_encoding.md R58, R59). -/
def runWord (w : CommandWord) (s : State) : Host.Outcome State Fault Refusal :=
  match decode w with
  | .command i => exec i s
  | .reserved _ => reservedWord s

/-- One step. A command word is accepted only when the host has taken the response and payload of the one before
(spec/30_encoding.md R67); until then the step transfers a beat the block offers (log 8). When the host does nothing,
nothing happens (log 9). Hard reset acts at once (spec/70_reset_and_hazards.md R133). -/
def step (s : State) : Host.Outcome State Fault Refusal :=
  match s.inputs with
  | [] => .next s
  | .takeBeat :: rest => .next ({ s with inputs := rest } : State).transfer
  | .hardReset :: rest => .next ({ s with inputs := rest } : State).hardReset
  | .command w :: rest => if s.drained then runWord w { s with inputs := rest } else .next s.transfer

/-- The host presents this word next, having taken every response and payload before it, so that the next step runs it
(log 7, log 20). The bits above `nbits` are zero. -/
def State.withFetchWord (s : State) (nbits w : Nat) : State :=
  { s.drain with inputs := .command (BitVec.ofNat 64 (w % 2 ^ nbits)) :: s.inputs }

end Sys2Proof.Machine
end

