-- ==== Sys2Proof/Machine/Assembler.lean ====
section
/-! DEFINITION. The textual command language (spec/30_encoding.md R66, R68): notation for command words, no part of the
step (log 16). Text is a list of characters. -/

namespace Sys2Proof.Machine

/-- A line's meaning (R66, R68). -/
inductive AsmLine where
  | config (bs mc : Int)
  | write (v : Int)
  | finish
  | reset
  /-- `.word x` -/
  | word (x : Int)
  /-- `WRITES v0, ..., vk` -/
  | writes (vs : List Int)
  /-- `WRITEN count, start, step` -/
  | writen (count start step : Int)
deriving DecidableEq, Repr

/-- `x mod 2^32` as a pattern. -/
def word32 (x : Int) : Word := BitVec.ofInt 32 x

/-- One WRITE, for `-2^31 ≤ v < 2^32` (R66). -/
def assembleWrite (v : Int) : Option CommandWord :=
  if -2 ^ 31 ≤ v ∧ v < 2 ^ 32 then some (encode (.write (word32 v))) else none

/-- The words of a line (R66, R68); none where an operand is out of its range. -/
def assemble : AsmLine → Option (List CommandWord)
  | .config bs mc =>
    if 0 ≤ bs ∧ bs < 2 ^ 32 ∧ 0 ≤ mc ∧ mc < 2 ^ 24 then some [encode (.config (word32 bs) (word32 mc))] else none
  | .write v => (assembleWrite v).map fun w => [w]
  | .finish => some [encode .finish]
  | .reset => some [encode .reset]
  | .word x => if 0 ≤ x ∧ x < 2 ^ 64 then some [BitVec.ofInt 64 x] else none
  | .writes vs => if vs = [] then none else vs.mapM assembleWrite
  | .writen count start step =>
    if 0 ≤ count then
      some ((List.range count.toNat).map fun j : Nat => encode (.write (word32 (start + (j : Int) * step))))
    else none

/-! ### Reading a line -/

/-- Blank characters. -/
def isBlank (c : Char) : Bool := c = ' ' || c = '\t' || c = '\r'

/-- The text without blanks at either end. -/
def trimBlanks (t : List Char) : List Char :=
  ((t.dropWhile isBlank).reverse.dropWhile isBlank).reverse

/-- The parts between commas. -/
def splitCommas : List Char → List (List Char)
  | [] => [[]]
  | c :: cs =>
    match splitCommas cs with
    | [] => [[c]]
    | part :: parts => if c = ',' then [] :: part :: parts else (c :: part) :: parts

/-- A digit's value below 16. -/
def digitValue (c : Char) : Option Nat :=
  if '0' ≤ c ∧ c ≤ '9' then some (c.toNat - '0'.toNat)
  else if 'a' ≤ c ∧ c ≤ 'f' then some (c.toNat - 'a'.toNat + 10)
  else if 'A' ≤ c ∧ c ≤ 'F' then some (c.toNat - 'A'.toNat + 10)
  else none

/-- The digits of a number in this base, after `acc`. -/
def readDigits (base : Nat) : Nat → List Char → Option Nat
  | acc, [] => some acc
  | acc, c :: cs =>
    match digitValue c with
    | none => none
    | some d => if d < base then readDigits base (acc * base + d) cs else none

/-- At least one digit. -/
def readNat (base : Nat) (t : List Char) : Option Nat := if t = [] then none else readDigits base 0 t

/-- Decimal, with a leading `-` if need be, or hexadecimal with a `0x` prefix (R66). -/
def readNumber : List Char → Option Int
  | '-' :: t => (readNat 10 t).map fun n => -(n : Int)
  | '0' :: 'x' :: t => (readNat 16 t).map fun n => (n : Int)
  | t => (readNat 10 t).map fun n => (n : Int)

/-- The operands of a line; none at all for blank text. -/
def readOperands (t : List Char) : Option (List Int) :=
  if trimBlanks t = [] then some [] else (splitCommas t).mapM fun part => readNumber (trimBlanks part)

/-- The line that a mnemonic and its operands make (R66, R68). -/
def makeLine (mnemonic : List Char) (operands : List Int) : Option AsmLine :=
  if mnemonic = ['C', 'O', 'N', 'F', 'I', 'G'] then
    match operands with
    | [bs, mc] => some (.config bs mc)
    | _ => none
  else if mnemonic = ['W', 'R', 'I', 'T', 'E'] then
    match operands with
    | [v] => some (.write v)
    | _ => none
  else if mnemonic = ['F', 'I', 'N', 'I', 'S', 'H'] then
    if operands = [] then some .finish else none
  else if mnemonic = ['R', 'E', 'S', 'E', 'T'] then
    if operands = [] then some .reset else none
  else if mnemonic = ['.', 'w', 'o', 'r', 'd'] then
    match operands with
    | [x] => some (.word x)
    | _ => none
  else if mnemonic = ['W', 'R', 'I', 'T', 'E', 'S'] then
    if operands = [] then none else some (.writes operands)
  else if mnemonic = ['W', 'R', 'I', 'T', 'E', 'N'] then
    match operands with
    | [count, start, step] => some (.writen count start step)
    | _ => none
  else none

/-- The words of one line of text: `;` starts a comment, and a blank line has none (R66). -/
def assembleText (line : List Char) : Option (List CommandWord) :=
  let code := trimBlanks (line.takeWhile fun c => c ≠ ';')
  if code = [] then some []
  else
    let mnemonic := code.takeWhile fun c => !isBlank c
    let rest := code.dropWhile fun c => !isBlank c
    (readOperands rest).bind fun operands => (makeLine mnemonic operands).bind assemble

end Sys2Proof.Machine
end

