-- ==== Sys2Proof/Machine/Consumer.lean ====
section
/-! DEFINITION. The consumer contract that says which payload bytes carry meaning (spec/20_memory.md R43, R52,
spec/43_bitpack.md R98, spec/44_varint.md R101, R103, spec/70_reset_and_hazards.md R143, R144). The decoder is no part of
the hardware (spec/00_scope.md R6): these functions serve statements only, and no meaning calls them (log 19). -/

namespace Sys2Proof.Machine

/-- `B[0] + B[1]*256 + ...` (spec/43_bitpack.md R98). -/
def leNumber : List Byte → Nat
  | [] => 0
  | b :: bs => b.toNat + 256 * leNumber bs

/-- Lane `k` of a packed group (spec/43_bitpack.md R98). -/
def unpackLane (w : Nat) (bytes : List Byte) (k : Nat) : Word :=
  BitVec.ofNat 32 (leNumber bytes / 2 ^ (k * w) % 2 ^ w)

/-- The eight lanes of a packed group (spec/43_bitpack.md R98). -/
def unpack8 (w : Nat) (bytes : List Byte) : List Word := (List.range 8).map (unpackLane w bytes)

/-- Reads bytes until one with bit 7 clear and sums `(byte mod 128) * 128^position` (spec/44_varint.md R101). -/
def readVarint : List Byte → Option (Nat × List Byte)
  | [] => none
  | b :: bs =>
    if b.toNat < 128 then some (b.toNat, bs)
    else (readVarint bs).map fun r => (b.toNat % 128 + 128 * r.1, r.2)

/-- `z ↦ (z >>u 1) ^ -(z & 1)` (spec/44_varint.md R103). -/
def unzigzag (z : Word) : Word := (z >>> 1) ^^^ -(z &&& 1)

/-- The lanes of `g` groups of `w` bytes, and what follows them (spec/20_memory.md R43). -/
def readGroups (w : Nat) : Nat → List Byte → Option (List Word × List Byte)
  | 0, bs => some ([], bs)
  | g + 1, bs =>
    if bs.length < w then none
    else (readGroups w g (bs.drop w)).map fun r => (unpack8 w (bs.take w) ++ r.1, r.2)

/-- The slots of the mini-blocks with these width bytes (spec/20_memory.md R43, R45). -/
def readMiniBlocks (groups : Nat) : List Byte → List Byte → Option (List Word × List Byte)
  | [], bs => some ([], bs)
  | w :: ws, bs =>
    (readGroups w.toNat groups bs).bind fun r =>
      (readMiniBlocks groups ws r.2).map fun r' => (r.1 ++ r'.1, r'.2)

/-- The `n` deltas of a block, `min_delta + unpacked_delta` each, and what follows the block (spec/20_memory.md R43, R52). -/
def readBlock (n mc mbs : Nat) (bs : List Byte) : Option (List Word × List Byte) :=
  (readVarint bs).bind fun z =>
    if z.2.length < mc then none
    else
      (readMiniBlocks (mbs / 8) ((z.2.take mc).take (ceilDiv n mbs)) (z.2.drop mc)).map fun r =>
        ((r.1.take n).map fun d => unzigzag (BitVec.ofNat 32 z.1) + d, r.2)

/-- The deltas of the blocks that hold `remaining` values more; at most `fuel` blocks (spec/20_memory.md R52). -/
def readBlocks (bsize mc mbs : Nat) : Nat → Nat → List Byte → Option (List Word)
  | 0, remaining, _ => if remaining = 0 then some [] else none
  | fuel + 1, remaining, bs =>
    if remaining = 0 then some []
    else
      (readBlock (min remaining bsize) mc mbs bs).bind fun r =>
        (readBlocks bsize mc mbs fuel (remaining - min remaining bsize) r.2).map fun ds => r.1 ++ ds

/-- Running sums modulo 2^32 from the first value (spec/20_memory.md R52). -/
def runningValues : Word → List Word → List Word
  | v, [] => [v]
  | v, d :: ds => v :: runningValues (v + d) ds

/-- The values of a page: exactly `total_value_count` of them (spec/20_memory.md R52, spec/70_reset_and_hazards.md R143, R144). -/
def readPage (bytes : List Byte) : Option (List Word) :=
  (readVarint bytes).bind fun bs =>
    (readVarint bs.2).bind fun mc =>
      (readVarint mc.2).bind fun count =>
        (readVarint count.2).bind fun first =>
          if count.1 = 0 then some []
          else
            (readBlocks bs.1 mc.1 (bs.1 / mc.1) count.1 (count.1 - 1) first.2).map
              (runningValues (BitVec.ofNat 32 first.1))

end Sys2Proof.Machine
end

