-- ==== Sys2Proof/Safety.lean ====
section
/-! DEFINITION. What the spec says of every run, in the terms the statements use: the invariant of spec/10_state.md R21,
the whole blocks of `output_buffer`, the lifecycle of spec/70_reset_and_hazards.md R137 and what a host can tell apart
(spec/30_encoding.md R65). -/

namespace Sys2Proof.Machine

/-- The six clauses of spec/40_config.md R70. -/
abbrev ValidConfig (maxBlockSize bs mc : Nat) : Prop :=
  0 < bs ∧ bs % 128 = 0 ∧ bs ≤ maxBlockSize ∧ 0 < mc ∧ bs % mc = 0 ∧ bs / mc % 8 = 0

/-- What a configured block's registers satisfy (spec/10_state.md R14). -/
structure ConfigInv (s : State) : Prop where
  valid : ValidConfig s.maxBlockSize s.blockSize.toNat s.miniBlockCount.toNat
  countFits : s.miniBlockCount.toNat < 2 ^ 24
  quotient : s.miniBlockSize.toNat = s.blockSize.toNat / s.miniBlockCount.toNat

/-- An unconfigured block is as hard reset left it (spec/70_reset_and_hazards.md R133). -/
structure BlankInv (s : State) : Prop where
  total : s.totalValueCount = 0
  first : s.firstValue = 0
  previous : s.previousValue = 0
  pending : s.pendingCount = 0
  minimum : s.minDelta = 0x7FFFFFFF#32
  output : s.outputBuffer = []
  finalized : s.finalized = false

/-- Items 1 to 6 of spec/10_state.md R21, for phases OPEN and FINALIZED. -/
structure PageInv (s : State) : Prop where
  pendingBound : s.pendingCount.toNat < s.blockSize.toNat
  unsetMinimum : s.pendingCount = 0 → s.minDelta = 0x7FFFFFFF#32
  minimumIsLeast : ∀ j < s.pendingCount.toNat, s.minDelta.toInt ≤ (s.pd.read j).toInt
  minimumIsOne : s.pendingCount ≠ 0 → ∃ j < s.pendingCount.toNat, s.pd.read j = s.minDelta
  emptyPage : s.totalValueCount = 0 → s.pendingCount = 0 ∧ s.outputBuffer = []
  pendingIsRest : s.totalValueCount ≠ 0 → s.finalized = false →
    (s.totalValueCount.toNat - 1) % s.blockSize.toNat = s.pendingCount.toNat
  finalizedIsFlushed : s.finalized = true → s.pendingCount = 0

/-- The invariant that every step keeps. -/
structure StateInv (s : State) : Prop where
  canonical : s.pd.wf
  errLegal : s.err.toNat ≤ 4
  outputFits : fitsOut s.outCap s.outputBuffer.length = true
  config : s.configured = true → ConfigInv s
  blank : s.configured = false → BlankInv s
  page : s.err = 0 → s.configured = true → PageInv s

/-- `output_buffer` is exactly `k` complete blocks of the present configuration (spec/10_state.md R21 item 7): the bytes
that FLUSH_BLOCK emits for `k` minima and post-subtraction memories, each with all `BS` slots valid. -/
def WholeBlocks (s : State) (k : Nat) : Prop :=
  ∃ blocks : List (Word × Memory), blocks.length = k ∧
    s.outputBuffer = blocks.flatMap fun b =>
      blockBytes b.1 b.2 s.blockSize.toNat s.miniBlockCount.toNat s.miniBlockSize.toNat

/-- Item 7 of spec/10_state.md R21. -/
def WholeBlocksInv (s : State) : Prop :=
  s.phase = .opened → s.totalValueCount ≠ 0 →
    WholeBlocks s ((s.totalValueCount.toNat - 1) / s.blockSize.toNat)

/-- What the rules let any response depend on (spec/30_encoding.md R65, spec/10_state.md R29): the flags and parameters;
in phases OPEN and FINALIZED also the registers, `output_buffer` and the slots `0 .. BS-1`. -/
structure SameView (s t : State) : Prop where
  err : s.err = t.err
  configured : s.configured = t.configured
  finalized : s.finalized = t.finalized
  extraSlots : s.extraSlots = t.extraSlots
  outCap : s.outCap = t.outCap
  page : s.err = 0 → s.configured = true →
    s.blockSize = t.blockSize ∧ s.miniBlockCount = t.miniBlockCount ∧ s.miniBlockSize = t.miniBlockSize ∧
    s.totalValueCount = t.totalValueCount ∧ s.firstValue = t.firstValue ∧ s.previousValue = t.previousValue ∧
    s.pendingCount = t.pendingCount ∧ s.minDelta = t.minDelta ∧ s.outputBuffer = t.outputBuffer ∧
    ∀ j < s.blockSize.toNat, s.pd.read j = t.pd.read j

/-- Commands one after the other, stopping at a fault of the model. -/
def execAll : List Instr → State → Result
  | [], s => .next s
  | i :: is, s =>
    match exec i s with
    | .next t => execAll is t
    | .fault f => .fault f
    | .refused r => .refused r

/-- A page but for its end: `WRITE* FINISH*` (spec/70_reset_and_hazards.md R137). -/
inductive PageCommands : List Instr → Prop where
  | finishes (n : Nat) : PageCommands (List.replicate n .finish)
  | write (v : Word) (is : List Instr) (h : PageCommands is) : PageCommands (.write v :: is)

/-- `( WRITE* FINISH* RESET )* WRITE* FINISH*` (spec/70_reset_and_hazards.md R137). -/
inductive Pages : List Instr → Prop where
  | last (is : List Instr) (h : PageCommands is) : Pages is
  | more (is js : List Instr) (h : PageCommands is) (hs : Pages js) : Pages (is ++ .reset :: js)

/-- The commands WRITE each of these values, in order. -/
def writesOf (vs : List Word) : List Instr := vs.map Instr.write

end Sys2Proof.Machine
end

