-- ==== Sys2Proof/Certificates/Slice0/Obligations.lean ====
section
/-! DEFINITION. The statements for the provers. Each docstring names the rules of spec/ it rests on. Where a statement
says which channel beats or which model fields stay, it speaks of the model's own form (log 7, log 8). -/

open Sys2Proof Sys2Proof.Machine

/-! ### Encoding -/

/-- spec/30_encoding.md R56, R57: a word selects the row whose mask and match it meets, with the row's operands; a word
that selects no row is reserved. -/
def Obligations.DecodeFollowsOpcodeMap : Prop :=
  ∀ w : CommandWord,
    (w &&& 0xFF00000000000000#64 = 0x0100000000000000#64 →
      decode w = .command (.config (w.extractLsb' 0 32) ((w.extractLsb' 32 24).setWidth 32))) ∧
    (w &&& 0xFFFFFFFF00000000#64 = 0x0200000000000000#64 → decode w = .command (.write (w.extractLsb' 0 32))) ∧
    (w &&& 0xFFFFFFFFFFFFFFFF#64 = 0x0300000000000000#64 → decode w = .command .finish) ∧
    (w &&& 0xFFFFFFFFFFFFFFFF#64 = 0x0400000000000000#64 → decode w = .command .reset) ∧
    (w &&& 0xFF00000000000000#64 ≠ 0x0100000000000000#64 →
      w &&& 0xFFFFFFFF00000000#64 ≠ 0x0200000000000000#64 →
      w &&& 0xFFFFFFFFFFFFFFFF#64 ≠ 0x0300000000000000#64 →
      w &&& 0xFFFFFFFFFFFFFFFF#64 ≠ 0x0400000000000000#64 → ∃ r, decode w = .reserved r)

/-- Every well-formed command is read back from its word, for every operand the fields admit. -/
def Obligations.DecodeInvertsEncode : Prop :=
  ∀ i : Instr, i.wellFormed = true → decode (encode i) = .command i

/-- A word that decodes is the word of the command it decodes to: no bit of it is dropped. -/
def Obligations.EncodeInvertsDecode : Prop :=
  ∀ (w : CommandWord) (i : Instr), decode w = .command i → i.wellFormed = true ∧ encode i = w

/-- The words of spec/30_encoding.md R66's examples and three reserved words of spec/95_test_vectors.md 2.7. -/
def Obligations.SampleWordsDecode : Prop :=
  decode 0x0100000400000080#64 = .command (.config 128 4) ∧
  decode 0x0200000000000007#64 = .command (.write 7) ∧
  decode 0x02000000FFFFFFFF#64 = .command (.write 0xFFFFFFFF#32) ∧
  decode 0x0200000080000000#64 = .command (.write 0x80000000#32) ∧
  decode 0x0300000000000000#64 = .command .finish ∧
  decode 0x0400000000000000#64 = .command .reset ∧
  decode 0x0000000000000000#64 = .reserved .opcode ∧
  decode 0x0200000100000007#64 = .reserved .fieldB ∧
  decode 0x0300000000000001#64 = .reserved .fieldA

/-- The pseudo-instructions (spec/30_encoding.md, Assembler syntax): the words of WRITES and WRITEN are the words of the single WRITE lines they stand for,
in order. WRITEN's values are taken modulo 2^32. -/
def Obligations.PseudoInstructionsExpand : Prop :=
  (∀ vs : List Int, vs ≠ [] →
    assemble (.writes vs) = (vs.mapM fun v => assemble (.write v)).map List.flatten) ∧
  (∀ (count : Nat) (start step : Int),
    assemble (.writen count start step) =
      ((List.range count).mapM fun j : Nat => assemble (.write ((start + (j : Int) * step) % 2 ^ 32))).map List.flatten)

/-! ### The step -/

/-- A step at a word that decodes, once every beat is taken, is `exec` of the command, with the word consumed
(spec/30_encoding.md, Transaction rule). -/
def Obligations.StepRunsDecodedInstr : Prop :=
  ∀ (s : State) (w : CommandWord) (rest : List HostInput) (i : Instr),
    s.inputs = .command w :: rest → s.rspQueue = [] → s.payQueue = [] → decode w = .command i →
      step s = exec i { s with inputs := rest }

/-- A word is accepted only when the response and the payload before it are taken (spec/30_encoding.md, Transaction rule):
until then a step hands over the oldest beat, the response's first (the model's choice, log 8), and changes nothing else. -/
def Obligations.StepHoldsWordUntilTaken : Prop :=
  ∀ (s : State) (w : CommandWord) (rest : List HostInput), s.inputs = .command w :: rest →
    (∀ r rs, s.rspQueue = r :: rs → step s = .next { s with rspQueue := rs, rspTaken := s.rspTaken ++ [r] }) ∧
    (∀ p ps, s.rspQueue = [] → s.payQueue = p :: ps →
      step s = .next { s with payQueue := ps, payTaken := s.payTaken ++ [p] })

/-- A beat once taken never changes (spec/20_memory.md, Ordering; spec/45_finish_reset.md, RESET). -/
def Obligations.TakenBeatsNeverChange : Prop :=
  ∀ s t : State, step s = .next t → s.rspTaken <+: t.rspTaken ∧ s.payTaken <+: t.payTaken

/-- spec/30_encoding.md R58: a word whose opcode is no command's, or whose must-be-zero field is not zero, raises
ERR_ILLEGAL in every phase but FAULT, and changes nothing else. -/
def Obligations.ReservedWordIsIllegal : Prop :=
  ∀ (s : State) (w : CommandWord) (rest : List HostInput),
    s.inputs = .command w :: rest → s.rspQueue = [] → s.payQueue = [] → s.err = 0 →
    (w.extractLsb' 56 8 = 0 ∨ 5 ≤ (w.extractLsb' 56 8).toNat ∨
      (w.extractLsb' 56 8 = 2 ∧ w.extractLsb' 32 24 ≠ 0) ∨
      ((w.extractLsb' 56 8 = 3 ∨ w.extractLsb' 56 8 = 4) ∧ (w.extractLsb' 32 24 ≠ 0 ∨ w.extractLsb' 0 32 ≠ 0))) →
      step s = .next { s with
        inputs := rest
        err := 4
        rspQueue := [{ status := 0#3 ++ (BitVec.ofBool s.finalized ++ (BitVec.ofBool s.configured ++ 4#3))
                       hasPayload := false }] }

/-- spec/10_state.md R24: every accepted word, reserved or not, adds one response whose status byte shows `err`,
`configured` and `finalized` as they are after the command, bits 7:5 zero; `err` never becomes 5 to 7. -/
def Obligations.StatusByteInResponse : Prop :=
  ∀ (s t : State) (w : CommandWord), runWord w s = .next t →
    (∃ b : RspBeat, t.rspQueue = s.rspQueue ++ [b] ∧
      b.status.extractLsb' 0 3 = t.err ∧ b.status.getLsbD 3 = t.configured ∧ b.status.getLsbD 4 = t.finalized ∧
      b.status.extractLsb' 5 3 = 0) ∧
    (s.err.toNat ≤ 4 → t.err.toNat ≤ 4)

/-- spec/30_encoding.md R61, R62: every accepted word adds exactly one response, made after its last state change. It is the
status byte; a payload of at least 4 bytes comes with it for a FINISH without fault and for nothing else. -/
def Obligations.ResponseFormat : Prop :=
  ∀ (s t : State) (w : CommandWord), runWord w s = .next t →
    let answered : Prop := decode w = .command .finish ∧ t.err = 0
    (answered → 4 ≤ (payload t).length ∧ t.payQueue = s.payQueue ++ payBeats (payload t) ∧
      t.rspQueue = s.rspQueue ++ [{ status := t.status, hasPayload := true }]) ∧
    (¬ answered → t.payQueue = s.payQueue ∧
      t.rspQueue = s.rspQueue ++ [{ status := t.status, hasPayload := false }])

/-! ### Faults -/

/-- spec/60_exceptions.md R121: in phase FAULT every command word, reserved or not, changes no state; its response is the
unchanged status byte without payload. -/
def Obligations.FaultPhaseIgnoresEveryWord : Prop :=
  ∀ (s : State) (w : CommandWord), s.err ≠ 0 →
    runWord w s = .next { s with
      rspQueue := s.rspQueue ++
        [{ status := 0#3 ++ (BitVec.ofBool s.finalized ++ (BitVec.ofBool s.configured ++ s.err)), hasPayload := false }] }

/-- spec/60_exceptions.md R122, R117: which fault a word reports. In phase FAULT none, it is ignored. Else a reserved word
ERR_ILLEGAL; a command not legal in the phase ERR_PROTOCOL, also where its own condition fails too; then CONFIG's
ERR_CONFIG, raised by nothing else; then WRITE's counter, before anything of the flush; each leaves all but `err` as it
was. A capacity fault, the one left, comes last and only from WRITE or FINISH in phase OPEN. -/
def Obligations.FaultPriority : Prop :=
  ∀ (s : State) (w : CommandWord),
    let answering := fun code : BitVec 3 => runWord w s = .next { s with
      err := code
      rspQueue := s.rspQueue ++
        [{ status := 0#3 ++ (BitVec.ofBool s.finalized ++ (BitVec.ofBool s.configured ++ code)), hasPayload := false }] }
    (s.err ≠ 0 → answering s.err) ∧
    (s.err = 0 →
      (∀ r, decode w = .reserved r → answering 4) ∧
      (∀ bs mc, decode w = .command (.config bs mc) →
        (s.configured = true → answering 3) ∧
        (s.configured = false → ¬ ValidConfig s.maxBlockSize bs.toNat mc.toNat → answering 1)) ∧
      (∀ v, decode w = .command (.write v) →
        (s.configured = false ∨ s.finalized = true → answering 3) ∧
        (s.configured = true → s.finalized = false → s.totalValueCount = 0xFFFFFFFF#32 → answering 2)) ∧
      (decode w = .command .finish ∨ decode w = .command .reset → s.configured = false → answering 3) ∧
      (∀ t, runWord w s = .next t →
        (t.err = 4 → ∃ r, decode w = .reserved r) ∧
        (t.err = 3 →
          (∃ bs mc, decode w = .command (.config bs mc) ∧ s.configured = true) ∨
          (∃ v, decode w = .command (.write v) ∧ (s.configured = false ∨ s.finalized = true)) ∨
          ((decode w = .command .finish ∨ decode w = .command .reset) ∧ s.configured = false)) ∧
        (t.err = 1 → ∃ bs mc, decode w = .command (.config bs mc) ∧ s.configured = false ∧
          ¬ ValidConfig s.maxBlockSize bs.toNat mc.toNat) ∧
        (t.err = 2 → s.configured = true ∧ s.finalized = false ∧
          ((∃ v, decode w = .command (.write v)) ∨ decode w = .command .finish))))

/-- spec/60_exceptions.md R120: a fault sets `err`, keeps `configured` and `finalized`, and answers with the status byte
alone; but for the capacity form of ERR_RESOURCE nothing else changes. -/
def Obligations.FaultsArePrecise : Prop :=
  ∀ (s t : State) (w : CommandWord), runWord w s = .next t → s.err = 0 → t.err ≠ 0 →
    t.configured = s.configured ∧ t.finalized = s.finalized ∧ t.payQueue = s.payQueue ∧
    t.rspQueue = s.rspQueue ++ [{ status := t.status, hasPayload := false }] ∧
    (t.err ≠ 2 ∨ (∃ v, decode w = .command (.write v) ∧ s.totalValueCount = 0xFFFFFFFF#32) →
      t = { s with err := t.err, rspQueue := t.rspQueue })

/-- spec/60_exceptions.md R125: no step clears a recorded fault but hard reset, which leaves the block unconfigured. -/
def Obligations.OnlyHardResetLeavesFault : Prop :=
  ∀ s t : State, step s = .next t → s.err ≠ 0 →
    t.err = s.err ∨ (s.inputs.head? = some .hardReset ∧ t.phase = .unconfigured)

/-- What hard reset leaves, in every state (spec/70_reset_and_hazards.md, Hard reset); what the spec leaves unspecified
there stays unstated (the configuration registers and PD). A response or payload not yet taken is abandoned: so the model
reads `a command in flight` (log 11). It is the only step that clears `err` or `configured`. -/
def Obligations.HardResetValues : Prop :=
  (∀ (s : State) (rest : List HostInput), s.inputs = .hardReset :: rest →
    ∃ t, step s = .next t ∧ t.phase = .unconfigured ∧ t.err = 0 ∧ t.configured = false ∧ t.finalized = false ∧
      t.totalValueCount = 0 ∧ t.pendingCount = 0 ∧ t.firstValue = 0 ∧ t.previousValue = 0 ∧
      t.minDelta = 0x7FFFFFFF#32 ∧ t.outputBuffer = [] ∧ t.rspQueue = [] ∧ t.payQueue = [] ∧
      t.rspTaken = s.rspTaken ∧ t.payTaken = s.payTaken ∧ t.inputs = rest ∧
      t.extraSlots = s.extraSlots ∧ t.outCap = s.outCap) ∧
  (∀ s t : State, step s = .next t → s.inputs.head? ≠ some .hardReset →
    (s.err ≠ 0 → t.err ≠ 0) ∧ (s.configured = true → t.configured = true))

/-! ### Configuration and parameters -/

/-- No step changes the instance's parameters (spec/00_scope.md, Parameters). -/
def Obligations.ParametersNeverChange : Prop :=
  ∀ s t : State, step s = .next t → t.extraSlots = s.extraSlots ∧ t.outCap = s.outCap

/-- Only a CONFIG that succeeds, and hard reset, write the configuration registers (spec/10_state.md, Configuration
registers). -/
def Obligations.OnlyConfigWritesConfiguration : Prop :=
  ∀ s t : State, step s = .next t →
    (t.blockSize = s.blockSize ∧ t.miniBlockCount = s.miniBlockCount ∧ t.miniBlockSize = s.miniBlockSize) ∨
    s.inputs.head? = some .hardReset ∨
    ∃ w bs mc, s.inputs.head? = some (.command w) ∧ decode w = .command (.config bs mc) ∧
      s.phase = .unconfigured ∧ ValidConfig s.maxBlockSize bs.toNat mc.toNat ∧
      t.blockSize = bs ∧ t.miniBlockCount = mc ∧ t.phase = .opened

/-- spec/40_config.md R69: CONFIG in every phase. In phase UNCONFIGURED it succeeds exactly when `valid(bs, mc)` holds
(`ValidConfig`, the six clauses of R70, of which the spec marks `mc > 0` as its own inference), and then writes the three
registers, clears the page, zero-fills slots `0 .. bs-1` and answers `0x08`; a failing clause is ERR_CONFIG and changes
nothing but `err`. The state it leaves is the one RESET leaves: a RESET right after changes nothing. -/
def Obligations.ConfigRule : Prop :=
  ∀ (bs mc : Word) (s : State),
    (s.err ≠ 0 → exec (.config bs mc) s = .next { s with
      rspQueue := s.rspQueue ++ [{ status := s.status, hasPayload := false }] }) ∧
    (s.err = 0 → s.configured = true → exec (.config bs mc) s = .next { s with
      err := 3
      rspQueue := s.rspQueue ++ [{ status := ({ s with err := 3 } : State).status, hasPayload := false }] }) ∧
    (s.err = 0 → s.configured = false → ¬ ValidConfig s.maxBlockSize bs.toNat mc.toNat →
      exec (.config bs mc) s = .next { s with
        err := 1
        rspQueue := s.rspQueue ++ [{ status := ({ s with err := 1 } : State).status, hasPayload := false }] }) ∧
    (s.err = 0 → s.configured = false → ValidConfig s.maxBlockSize bs.toNat mc.toNat →
      ∃ (m : Memory) (quotient : Word) (t : State),
        t = { s with
          blockSize := bs, miniBlockCount := mc, miniBlockSize := quotient
          totalValueCount := 0, firstValue := 0, previousValue := 0, pd := m, pendingCount := 0
          minDelta := 0x7FFFFFFF#32, outputBuffer := [], finalized := false, configured := true
          rspQueue := s.rspQueue ++ [{ status := 0x08#8, hasPayload := false }] } ∧
        exec (.config bs mc) s = .next t ∧
        quotient.toNat = bs.toNat / mc.toNat ∧
        (∀ j, m.read j = if j < bs.toNat then 0 else s.pd.read j) ∧
        exec .reset t = .next { t with rspQueue := t.rspQueue ++ [{ status := 0x08#8, hasPayload := false }] })

/-- What a valid configuration implies (spec/40_config.md, CONFIG): the quotient is exact, a positive multiple of 8, and
the blocks and mini-blocks tile. -/
def Obligations.ConfigQuotientExact : Prop :=
  ∀ (s : State), ConfigInv s →
    s.miniBlockCount.toNat * s.miniBlockSize.toNat = s.blockSize.toNat ∧ s.miniBlockSize.toNat % 8 = 0 ∧
    8 ≤ s.miniBlockSize.toNat ∧ s.miniBlockSize.toNat ≤ s.blockSize.toNat ∧
    1 ≤ s.miniBlockCount.toNat ∧ s.miniBlockCount.toNat ≤ s.blockSize.toNat / 8

/-- The verdicts of the table in spec/40_config.md, on an unconfigured block of depth 384 or more: the resulting `err`. -/
def Obligations.ConfigVerdicts : Prop :=
  ∀ s : State, s.err = 0 → s.configured = false → 384 ≤ s.maxBlockSize →
    let verdict := fun (bs mc : Word) (e : BitVec 3) => ∃ t, exec (.config bs mc) s = .next t ∧ t.err = e
    verdict 128 4 0 ∧ verdict 128 1 0 ∧ verdict 128 16 0 ∧ verdict 128 8 0 ∧ verdict 384 3 0 ∧ verdict 384 6 0 ∧
    verdict 128 32 1 ∧ verdict 128 3 1 ∧ verdict 128 0 1 ∧ verdict 0 4 1 ∧ verdict 100 4 1 ∧ verdict 64 8 1 ∧
    verdict 256 6 1 ∧
    ∀ bs : Word, bs.toNat = s.maxBlockSize + 128 → verdict bs 1 1

/-! ### WRITE -/

/-- spec/41_write.md R74: the first value of a page is recorded; no delta is stored and no flush happens. -/
def Obligations.FirstWriteRule : Prop :=
  ∀ (s : State) (v : Word), s.err = 0 → s.configured = true → s.finalized = false → s.totalValueCount = 0 →
    exec (.write v) s = .next { s with
      firstValue := v, previousValue := v, totalValueCount := 1
      rspQueue := s.rspQueue ++ [{ status := 0x08#8, hasPayload := false }] }

/-- spec/41_write.md R75, R76: a later value. The delta is the wrapped 32-bit difference to the `previous_value` before
this WRITE, stored in slot `pending_count`; the minimum is the signed minimum of itself and the delta, and an unset minimum
becomes the delta; the counts advance; every other slot, register and flag stays. Where the block is not full the command
ends there; where it is, FLUSH_BLOCK follows (`FillingWriteFlushes`, `CapacityFaultFlags`). -/
def Obligations.LaterWriteRule : Prop :=
  ∀ (s : State) (v : Word), s.err = 0 → s.configured = true → s.finalized = false →
    s.totalValueCount ≠ 0 → s.totalValueCount ≠ 0xFFFFFFFF#32 → s.pendingCount.toNat < s.blockSize.toNat →
    ∃ (m : Memory) (d least : Word) (u : State),
      u = { s with
        previousValue := v, pd := m, pendingCount := s.pendingCount + 1, minDelta := least
        totalValueCount := s.totalValueCount + 1 } ∧
      (s.pendingCount.toNat + 1 < s.blockSize.toNat → exec (.write v) s = .next { u with
        rspQueue := s.rspQueue ++ [{ status := 0x08#8, hasPayload := false }] }) ∧
      (s.pendingCount.toNat + 1 = s.blockSize.toNat → exec (.write v) s = (flushBlock u).andThen respond) ∧
      d.toNat = (v.toNat + 2 ^ 32 - s.previousValue.toNat) % 2 ^ 32 ∧
      (∀ j, m.read j = if j = s.pendingCount.toNat then d else s.pd.read j) ∧
      least.toInt = min s.minDelta.toInt d.toInt ∧ (s.minDelta = 0x7FFFFFFF#32 → least = d)

/-- The count (spec/41_write.md, WRITE; that a later value counts too is the spec's own inference there): every WRITE that
completes adds one, the first included; at `2^32 - 1` it raises ERR_RESOURCE before changing anything, so the count never
wraps. -/
def Obligations.CountAdvancesOrFaults : Prop :=
  ∀ (s : State) (v : Word), s.err = 0 → s.configured = true → s.finalized = false →
    (∀ t, exec (.write v) s = .next t → t.err = 0 → t.totalValueCount.toNat = s.totalValueCount.toNat + 1) ∧
    (s.totalValueCount = 0xFFFFFFFF#32 → exec (.write v) s = .next { s with
      err := 2
      rspQueue := s.rspQueue ++ [{ status := 0x0A#8, hasPayload := false }] })

/-- The WRITE that fills the block flushes it inside the command (spec/41_write.md, WRITE; spec/42_flush_block.md): PD takes
the delta in slot `pending_count` and then loses the block minimum in all its slots; the block's bytes are appended when they
fit; `pending_count` is 0 and the minimum unset afterwards; `previous_value` is kept for the next block. -/
def Obligations.FillingWriteFlushes : Prop :=
  ∀ (s : State) (v : Word), s.err = 0 → s.configured = true → s.finalized = false → ConfigInv s →
    s.totalValueCount ≠ 0 → s.totalValueCount ≠ 0xFFFFFFFF#32 → s.pendingCount.toNat + 1 = s.blockSize.toNat →
    ∃ (m : Memory) (least : Word),
      (∀ j, m.read j =
        if j = s.pendingCount.toNat then v - s.previousValue - least
        else if j < s.blockSize.toNat then s.pd.read j - least else s.pd.read j) ∧
      least.toInt = min s.minDelta.toInt (v - s.previousValue).toInt ∧
      (fitsOut s.outCap (s.outputBuffer.length +
          blockLength least m s.blockSize.toNat s.miniBlockCount.toNat s.miniBlockSize.toNat) = true →
        exec (.write v) s = .next { s with
          previousValue := v, pd := m, pendingCount := 0, minDelta := 0x7FFFFFFF#32
          totalValueCount := s.totalValueCount + 1
          outputBuffer := s.outputBuffer ++
            blockBytes least m s.blockSize.toNat s.miniBlockCount.toNat s.miniBlockSize.toNat
          rspQueue := s.rspQueue ++ [{ status := 0x08#8, hasPayload := false }] })

/-- spec/60_exceptions.md R124: a block that does not fit (spec/42_flush_block.md, Capacity). The command, a WRITE that fills the
block or a FINISH, raises ERR_RESOURCE: `err` is 2, `configured` 1, `finalized` 0, the configuration stays, the response
has no payload, and nothing is said of the data state. With `OUT_CAP` unbounded it cannot occur. -/
def Obligations.CapacityFaultFlags : Prop :=
  (∀ (s : State) (i : Instr) (t : State), s.err = 0 → exec i s = .next t → s.outCap = none →
    t.err = 2 → s.totalValueCount = 0xFFFFFFFF#32) ∧
  ∀ (s : State), s.err = 0 → s.configured = true → s.finalized = false → ConfigInv s →
    let faulted := fun r : Result => ∃ t, r = .next t ∧ t.err = 2 ∧ t.configured = true ∧ t.finalized = false ∧
      t.blockSize = s.blockSize ∧ t.miniBlockCount = s.miniBlockCount ∧ t.miniBlockSize = s.miniBlockSize ∧
      t.payQueue = s.payQueue ∧ t.rspQueue = s.rspQueue ++ [{ status := 0x0A#8, hasPayload := false }]
    (∀ v, s.totalValueCount ≠ 0 → s.totalValueCount ≠ 0xFFFFFFFF#32 → s.pendingCount.toNat + 1 = s.blockSize.toNat →
      (∀ (m : Memory) (least : Word),
        least.toInt = min s.minDelta.toInt (v - s.previousValue).toInt →
        (∀ j < s.blockSize.toNat, m.read j =
          (if j = s.pendingCount.toNat then v - s.previousValue else s.pd.read j) - least) →
        fitsOut s.outCap (s.outputBuffer.length +
          blockLength least m s.blockSize.toNat s.miniBlockCount.toNat s.miniBlockSize.toNat) = false) →
      faulted (exec (.write v) s)) ∧
    (s.pendingCount ≠ 0 → s.pendingCount.toNat ≤ s.blockSize.toNat →
      (∀ m : Memory, (∀ j < s.blockSize.toNat, m.read j =
          if j < s.pendingCount.toNat then s.pd.read j - s.minDelta else s.pd.read j) →
        fitsOut s.outCap (s.outputBuffer.length +
          blockLength s.minDelta m s.pendingCount.toNat s.miniBlockCount.toNat s.miniBlockSize.toNat) = false) →
      faulted (exec .finish s))

/-- No value raises a fault (spec/60_exceptions.md, Taxonomy): in an open page of an unbounded buffer, every WRITE below the
count's end completes without a fault. -/
def Obligations.EveryValueIsAccepted : Prop :=
  ∀ (s : State) (v : Word), StateInv s → s.phase = .opened → s.outCap = none → s.totalValueCount ≠ 0xFFFFFFFF#32 →
    ∃ t, exec (.write v) s = .next t ∧ t.phase = .opened

/-! ### FLUSH_BLOCK, PACK8, UVARINT32, ZIGZAG32 -/

/-- spec/42_flush_block.md R82: min-subtraction modulo 2^32 in the first `n` slots and no other; where the minimum is a
lower bound of them as i32, the u32 reading of the result is the exact difference. -/
def Obligations.MinSubtraction : Prop :=
  ∀ s t : State, flushBlock s = .flushed t →
    (∀ j < s.pendingCount.toNat,
      (t.pd.read j).toNat = ((s.pd.read j).toNat + 2 ^ 32 - s.minDelta.toNat) % 2 ^ 32) ∧
    (∀ j, s.pendingCount.toNat ≤ j → t.pd.read j = s.pd.read j) ∧
    ((∀ j < s.pendingCount.toNat, s.minDelta.toInt ≤ (s.pd.read j).toInt) →
      ∀ j < s.pendingCount.toNat, ((t.pd.read j).toNat : Int) = (s.pd.read j).toInt - s.minDelta.toInt)

/-- spec/42_flush_block.md R84: the bit-length. -/
def Obligations.BitlenIsMinimal : Prop :=
  bitlen 0 = 0 ∧
  (∀ x : Word, x ≠ 0 → 1 ≤ bitlen x ∧ bitlen x ≤ 32 ∧ 2 ^ (bitlen x - 1) ≤ x.toNat ∧ x.toNat < 2 ^ bitlen x ∧
    ∀ b, 2 ^ (b - 1) ≤ x.toNat → x.toNat < 2 ^ b → 1 ≤ b → b = bitlen x) ∧
  bitlen 1 = 1 ∧ bitlen 2 = 2 ∧ bitlen 3 = 2 ∧ bitlen 255 = 8 ∧ bitlen 256 = 9 ∧
  bitlen 0x7FFFFFFF#32 = 31 ∧ bitlen 0x80000000#32 = 32 ∧ bitlen 0xFFFFFFFF#32 = 32

/-- spec/42_flush_block.md R83, R86, R87: the bytes a flush appends. First the minimum's varint, from the register before
step 6; then one byte per configured mini-block, the least `b` such that the valid slots of a touched mini-block fit in `b`
bits, 0 of an untouched one; then for each touched mini-block in order its `MBS/8` groups of 8 slots, each packed at that
width, whatever its pad slots hold. Step 6 follows: minimum unset, no delta pending, the page registers kept. -/
def Obligations.FlushedBlockLayout : Prop :=
  ∀ s t : State, ConfigInv s → 0 < s.pendingCount.toNat → s.pendingCount.toNat ≤ s.blockSize.toNat →
    flushBlock s = .flushed t →
    let n := s.pendingCount.toNat
    let mbs := s.miniBlockSize.toNat
    ∃ widths packed : List Byte,
      t.outputBuffer = s.outputBuffer ++ (uvarint32 (zigzag32 s.minDelta) ++ widths ++ packed) ∧
      widths.length = s.miniBlockCount.toNat ∧
      (∀ i (hi : i < widths.length),
        widths[i].toNat ≤ 32 ∧
        (i * mbs < n →
          (∀ j, i * mbs ≤ j → j < (i + 1) * mbs → j < n → (t.pd.read j).toNat < 2 ^ (widths[i].toNat)) ∧
          ∀ b, (∀ j, i * mbs ≤ j → j < (i + 1) * mbs → j < n → (t.pd.read j).toNat < 2 ^ b) → widths[i].toNat ≤ b) ∧
        (n ≤ i * mbs → widths[i] = 0)) ∧
      packed = (((List.range widths.length).filter fun i => i * mbs < n).flatMap fun i =>
        (List.range (mbs / 8)).flatMap fun g =>
          let slot := fun k => t.pd.read (i * mbs + 8 * g + k)
          pack8 (widths.getD i 0).toNat (slot 0) (slot 1) (slot 2) (slot 3) (slot 4) (slot 5) (slot 6) (slot 7)) ∧
      packed.length = mbs / 8 * (widths.map BitVec.toNat).sum ∧
      t.minDelta = 0x7FFFFFFF#32 ∧ t.pendingCount = 0 ∧ t.previousValue = s.previousValue ∧
      t.firstValue = s.firstValue ∧ t.totalValueCount = s.totalValueCount

/-- The properties of a flushed block (the five items at the end of spec/42_flush_block.md) whose minimum is the least of its
deltas. -/
def Obligations.FlushedBlockProperties : Prop :=
  ∀ s t : State, ConfigInv s → 0 < s.pendingCount.toNat → s.pendingCount.toNat ≤ s.blockSize.toNat →
    (∀ j < s.pendingCount.toNat, s.minDelta.toInt ≤ (s.pd.read j).toInt) →
    (∃ j < s.pendingCount.toNat, s.pd.read j = s.minDelta) →
    flushBlock s = .flushed t →
    let n := s.pendingCount.toNat
    let mbs := s.miniBlockSize.toNat
    let w := miniBlockWidth t.pd n mbs
    (∀ j < n, 0 ≤ (s.pd.read j).toInt - s.minDelta.toInt ∧
      ((t.pd.read j).toNat : Int) = (s.pd.read j).toInt - s.minDelta.toInt) ∧
    (∃ j < n, t.pd.read j = 0) ∧
    (∀ i < touched n mbs,
      (∀ j, i * mbs ≤ j → j < min ((i + 1) * mbs) n → (t.pd.read j).toNat < 2 ^ w i) ∧
      (0 < w i → ∃ j, i * mbs ≤ j ∧ j < min ((i + 1) * mbs) n ∧ 2 ^ (w i - 1) ≤ (t.pd.read j).toNat) ∧
      (w i = 0 ↔ ∀ j, i * mbs ≤ j → j < min ((i + 1) * mbs) n → t.pd.read j = 0)) ∧
    (∀ i, w i ≤ 32)

/-- The length of a block's bytes is the `L` of the capacity test, between `1 + MC` and `5 + MC + 4*BS`
(spec/20_memory.md, The output layout). -/
def Obligations.BlockLengthBounds : Prop :=
  ∀ (s : State) (least : Word) (m : Memory) (n : Nat), ConfigInv s → 0 < n → n ≤ s.blockSize.toNat →
    let mc := s.miniBlockCount.toNat
    let mbs := s.miniBlockSize.toNat
    (blockBytes least m n mc mbs).length = blockLength least m n mc mbs ∧
    1 + mc ≤ blockLength least m n mc mbs ∧
    blockLength least m n mc mbs ≤ 5 + mc + 4 * s.blockSize.toNat

/-- PACK8 bit by bit (spec/43_bitpack.md; least significant bit first is the spec's own reading, log 13): exactly `w`
bytes, and bit `b` of lane `k` is bit `(k*w + b) mod 8` of byte `(k*w + b) div 8`. -/
def Obligations.Pack8BitLayout : Prop :=
  ∀ (w : Nat) (v0 v1 v2 v3 v4 v5 v6 v7 : Word), w ≤ 32 →
    (pack8 w v0 v1 v2 v3 v4 v5 v6 v7).length = w ∧
    ∀ k b, k < 8 → b < w →
      ((pack8 w v0 v1 v2 v3 v4 v5 v6 v7).getD ((k * w + b) / 8) 0).getLsbD ((k * w + b) % 8) =
        ([v0, v1, v2, v3, v4, v5, v6, v7].getD k 0).getLsbD b

/-- The inverse of PACK8 (spec/43_bitpack.md, PACK8): every lane comes back modulo `2^w`. -/
def Obligations.UnpackInvertsPack8 : Prop :=
  ∀ (w : Nat) (v0 v1 v2 v3 v4 v5 v6 v7 : Word), w ≤ 32 →
    unpack8 w (pack8 w v0 v1 v2 v3 v4 v5 v6 v7) =
      [v0, v1, v2, v3, v4, v5, v6, v7].map fun v => BitVec.ofNat 32 (v.toNat % 2 ^ w)

/-- UVARINT32 (spec/44_varint.md, from general knowledge there, log 13): its length by the table, its last byte not zero
but for 0, and the reader gets the number back whatever follows. -/
def Obligations.VarintIsShortestAndReadsBack : Prop :=
  ∀ (x : Word) (rest : List Byte),
    readVarint (uvarint32 x ++ rest) = some (x.toNat, rest) ∧
    (uvarint32 x).length =
      (if x.toNat < 128 then 1 else if x.toNat < 16384 then 2 else if x.toNat < 2097152 then 3
        else if x.toNat < 268435456 then 4 else 5) ∧
    ((uvarint32 x).getLast? = some 0 ↔ x = 0)

/-- ZIGZAG32 (spec/44_varint.md, from general knowledge there, log 13) maps `s(x)` to `2*s(x)` or `-2*s(x) - 1`, a
bijection from i32 onto u32. -/
def Obligations.ZigzagFormula : Prop :=
  (∀ x : Word, ((zigzag32 x).toNat : Int) = if 0 ≤ x.toInt then 2 * x.toInt else -2 * x.toInt - 1) ∧
  (∀ x : Word, unzigzag (zigzag32 x) = x) ∧ (∀ z : Word, zigzag32 (unzigzag z) = z)

/-! ### FINISH -/

/-- FINISH in every phase (spec/45_finish_reset.md, FINISH): ignored in FAULT, ERR_PROTOCOL in UNCONFIGURED; in OPEN it
flushes what is pending, if that fits, sets `finalized` and answers `0x18` with the four header varints and
`output_buffer`; in FINALIZED it answers the same and changes nothing. -/
def Obligations.FinishRule : Prop :=
  ∀ s : State,
    let header := fun t : State => uvarint32 t.blockSize ++ uvarint32 t.miniBlockCount ++
      uvarint32 t.totalValueCount ++ uvarint32 t.firstValue
    let answered := fun t : State => ({ t with
      finalized := true
      rspQueue := t.rspQueue ++ [{ status := 0x18#8, hasPayload := true }]
      payQueue := t.payQueue ++ payBeats (header t ++ t.outputBuffer) } : State)
    (s.err ≠ 0 → exec .finish s = .next { s with
      rspQueue := s.rspQueue ++ [{ status := s.status, hasPayload := false }] }) ∧
    (s.err = 0 → s.configured = false → exec .finish s = .next { s with
      err := 3
      rspQueue := s.rspQueue ++ [{ status := ({ s with err := 3 } : State).status, hasPayload := false }] }) ∧
    (s.err = 0 → s.configured = true → s.finalized = true ∨ s.pendingCount = 0 →
      exec .finish s = .next (answered s)) ∧
    (s.err = 0 → s.configured = true → s.finalized = false → ConfigInv s → s.pendingCount ≠ 0 →
      s.pendingCount.toNat ≤ s.blockSize.toNat →
      ∃ m : Memory,
        (∀ j, m.read j = if j < s.pendingCount.toNat then s.pd.read j - s.minDelta else s.pd.read j) ∧
        (fitsOut s.outCap (s.outputBuffer.length +
            blockLength s.minDelta m s.pendingCount.toNat s.miniBlockCount.toNat s.miniBlockSize.toNat) = true →
          exec .finish s = .next (answered { s with
            pd := m, pendingCount := 0, minDelta := 0x7FFFFFFF#32
            outputBuffer := s.outputBuffer ++
              blockBytes s.minDelta m s.pendingCount.toNat s.miniBlockCount.toNat s.miniBlockSize.toNat })))

/-- spec/45_finish_reset.md R107: a FINISH after a FINISH that completed changes no state and hands over the same payload
again. -/
def Obligations.FinishIsIdempotent : Prop :=
  ∀ s t : State, s.err = 0 → exec .finish s = .next t → t.err = 0 →
    ∃ bytes, t.payQueue = s.payQueue ++ payBeats bytes ∧
      exec .finish t = .next { t with
        rspQueue := t.rspQueue ++ [{ status := 0x18#8, hasPayload := true }]
        payQueue := t.payQueue ++ payBeats bytes }

/-- The payload's shape (spec/45_finish_reset.md, FINISH; spec/30_encoding.md, Responses): at least four bytes, from which the
four header fields and `output_buffer` are read back; the payload channel carries exactly these bytes, `pay_last` with the
last alone. -/
def Obligations.PayloadReadsBack : Prop :=
  ∀ s : State,
    4 ≤ (payload s).length ∧
    (payBeats (payload s)).map PayBeat.data = payload s ∧
    (∀ k (hk : k < (payBeats (payload s)).length), (payBeats (payload s))[k].last = decide (k + 1 = (payload s).length)) ∧
    ∃ r1 r2 r3,
      readVarint (payload s) = some (s.blockSize.toNat, r1) ∧ readVarint r1 = some (s.miniBlockCount.toNat, r2) ∧
      readVarint r2 = some (s.totalValueCount.toNat, r3) ∧ readVarint r3 = some (s.firstValue.toNat, s.outputBuffer)

/-! ### RESET -/

/-- spec/45_finish_reset.md R110: RESET in every phase. -/
def Obligations.ResetRule : Prop :=
  ∀ s : State,
    (s.err ≠ 0 → exec .reset s = .next { s with
      rspQueue := s.rspQueue ++ [{ status := s.status, hasPayload := false }] }) ∧
    (s.err = 0 → s.configured = false → exec .reset s = .next { s with
      err := 3
      rspQueue := s.rspQueue ++ [{ status := ({ s with err := 3 } : State).status, hasPayload := false }] }) ∧
    (s.err = 0 → s.configured = true → ∃ m : Memory,
      exec .reset s = .next { s with
        totalValueCount := 0, pendingCount := 0, minDelta := 0x7FFFFFFF#32, outputBuffer := []
        firstValue := 0, previousValue := 0, pd := m, finalized := false
        rspQueue := s.rspQueue ++ [{ status := 0x08#8, hasPayload := false }] } ∧
      ∀ j, m.read j = if j < s.blockSize.toNat then 0 else s.pd.read j)

/-- After RESET a configured block is, as far as any response can depend on it, a hard-reset block given the same
configuration (spec/45_finish_reset.md, RESET). -/
def Obligations.ResetEqualsFreshConfig : Prop :=
  ∀ s : State, StateInv s → s.err = 0 → s.configured = true →
    ∃ t u, exec .reset s = .next t ∧
      exec (.config s.blockSize s.miniBlockCount) s.hardReset = .next u ∧ u.err = 0 ∧ SameView t u

/-- Two blocks that agree on what the rules let a response depend on give the same response and payload to every word, and
agree again afterwards (spec/30_encoding.md, Responses): so what hard reset, a capacity fault or the slots from `BS` on leave
unspecified is never observed. -/
def Obligations.UnspecifiedStateIsUnobservable : Prop :=
  ∀ (s t s' : State) (w : CommandWord), SameView s t → runWord w s = .next s' →
    ∃ t', runWord w t = .next t' ∧ SameView s' t' ∧
      ∃ rsp pay, s'.rspQueue = s.rspQueue ++ rsp ∧ t'.rspQueue = t.rspQueue ++ rsp ∧
        s'.payQueue = s.payQueue ++ pay ∧ t'.payQueue = t.payQueue ++ pay

/-! ### Invariants and runs -/

/-- The invariants hold after hard reset. -/
def Obligations.InvHoldsAtReset : Prop :=
  StateInv State.reset ∧ WholeBlocksInv State.reset

/-- Every step keeps the invariant of spec/10_state.md, Data registers: canonical PD, legal `err`, bounded `output_buffer`,
a valid configuration, and in phases OPEN and FINALIZED the relations of the page registers. -/
def Obligations.StepKeepsInv : Prop :=
  ∀ s t : State, StateInv s → step s = .next t → StateInv t

/-- The block has no hang and nothing the host does is undefined (spec/70_reset_and_hazards.md, Termination, The host):
from every state of the invariant a step answers a next state. -/
def Obligations.StepNeverStops : Prop :=
  ∀ s : State, StateInv s → ∃ t, step s = .next t

/-- Between commands of an open page `output_buffer` is exactly `(total_value_count - 1) / BS` complete blocks
(item 7 of the invariants of spec/10_state.md). -/
def Obligations.StepKeepsWholeBlocks : Prop :=
  ∀ s t : State, StateInv s → WholeBlocksInv s → step s = .next t → WholeBlocksInv t

/-- Capacity planning (spec/70_reset_and_hazards.md, Hazards): the blocks of an open page take at most
`5 + MC + 4*BS` bytes each, so a page of `N` values within that bound of `OUT_CAP` raises no fault. -/
def Obligations.PlannedPageFits : Prop :=
  ∀ s : State, StateInv s → WholeBlocksInv s → s.phase = .opened → s.totalValueCount ≠ 0 →
    let perBlock := 5 + s.miniBlockCount.toNat + 4 * s.blockSize.toNat
    s.outputBuffer.length ≤ (s.totalValueCount.toNat - 1) / s.blockSize.toNat * perBlock ∧
    (∀ (N : Nat) (v : Word), s.totalValueCount.toNat + 1 ≤ N → N < 2 ^ 32 →
      fitsOut s.outCap (ceilDiv (N - 1) s.blockSize.toNat * perBlock) = true →
      ∃ t, exec (.write v) s = .next t ∧ t.err = 0) ∧
    (fitsOut s.outCap (ceilDiv (s.totalValueCount.toNat - 1) s.blockSize.toNat * perBlock) = true →
      ∃ t, exec .finish s = .next t ∧ t.err = 0)

/-- The lifecycle (spec/70_reset_and_hazards.md, Boot and lifecycle): from a hard-reset block, a sequence of commands that
ends without a fault is a CONFIG followed by `( WRITE* FINISH* RESET )* WRITE* FINISH*`; and every such sequence with a
valid CONFIG, an unbounded buffer and fewer than 2^32 commands runs without a fault. -/
def Obligations.LifecycleGrammar : Prop :=
  ∀ s : State, StateInv s → s.phase = .unconfigured →
    (∀ is t, is ≠ [] → execAll is s = .next t → t.err = 0 →
      ∃ bs mc pages, is = .config bs mc :: pages ∧ ValidConfig s.maxBlockSize bs.toNat mc.toNat ∧ Pages pages) ∧
    (∀ bs mc pages, ValidConfig s.maxBlockSize bs.toNat mc.toNat → Pages pages → pages.length < 2 ^ 32 →
      mc.toNat < 2 ^ 24 → s.outCap = none →
      ∃ t, execAll (.config bs mc :: pages) s = .next t ∧ t.err = 0)

/-- A flushed block decodes, by the consumer contract of spec/20_memory.md, to the deltas that were pending, whatever bytes
follow it and whatever its pad slots hold. -/
def Obligations.FlushedBlockReadsBack : Prop :=
  ∀ s t : State, ConfigInv s → 0 < s.pendingCount.toNat → s.pendingCount.toNat ≤ s.blockSize.toNat →
    flushBlock s = .flushed t →
    ∃ bytes, t.outputBuffer = s.outputBuffer ++ bytes ∧
      ∀ rest, readBlock s.pendingCount.toNat s.miniBlockCount.toNat s.miniBlockSize.toNat (bytes ++ rest) =
        some ((List.range s.pendingCount.toNat).map s.pd.read, rest)

/-- Round trip (the consumer contract of spec/20_memory.md and the first property of spec/95_test_vectors.md, Part 1): the
values written to an empty page of an unbounded buffer, fewer than 2^32 of them, are what the consumer reads from the
payload of FINISH. -/
def Obligations.PageReadsBack : Prop :=
  ∀ (s : State) (vs : List Word), StateInv s → s.phase = .opened → s.totalValueCount = 0 → s.outCap = none →
    vs.length < 2 ^ 32 →
    ∃ t u bytes, execAll (writesOf vs) s = .next t ∧ exec .finish t = .next u ∧ u.err = 0 ∧
      u.payQueue = s.payQueue ++ payBeats bytes ∧ readPage bytes = some vs

/-! ### Frames -/

/-- Bytes of `output_buffer` are never changed or removed by WRITE and FINISH short of a capacity fault
(spec/20_memory.md, Address spaces). -/
def Obligations.OutputOnlyGrows : Prop :=
  ∀ (i : Instr) (s t : State), (∃ v, i = .write v) ∨ i = .finish → exec i s = .next t → t.err = s.err →
    s.outputBuffer <+: t.outputBuffer

/-- What WRITE leaves unchanged when it answers a next state and raises no fault: configuration, flags, parameters, payload
channel, what the host holds; `first_value` but for the first value; with no flush every slot but number `pending_count`
and `output_buffer`; with a flush every slot from `BS` on. -/
def Obligations.WriteFrame : Prop :=
  ∀ (v : Word) (s t : State), exec (.write v) s = .next t → t.err = s.err →
    t.extraSlots = s.extraSlots ∧ t.outCap = s.outCap ∧ t.blockSize = s.blockSize ∧
    t.miniBlockCount = s.miniBlockCount ∧ t.miniBlockSize = s.miniBlockSize ∧
    t.configured = s.configured ∧ t.finalized = s.finalized ∧
    t.payQueue = s.payQueue ∧ t.rspTaken = s.rspTaken ∧ t.payTaken = s.payTaken ∧ t.inputs = s.inputs ∧
    t.draws = s.draws ∧
    (s.totalValueCount ≠ 0 → t.firstValue = s.firstValue) ∧
    (s.totalValueCount = 0 → t.pendingCount = s.pendingCount ∧ t.minDelta = s.minDelta ∧ ∀ j, t.pd.read j = s.pd.read j) ∧
    (s.totalValueCount = 0 ∨ s.pendingCount.toNat + 1 ≠ s.blockSize.toNat → t.outputBuffer = s.outputBuffer ∧
      ∀ j, j ≠ s.pendingCount.toNat → t.pd.read j = s.pd.read j) ∧
    (∀ j, s.blockSize.toNat ≤ j → t.pd.read j = s.pd.read j)

/-- What FINISH leaves unchanged when it answers a next state and raises no fault: all but `finalized`, the channels and,
where it flushes, `pending_count`, the minimum, `output_buffer` and the slots below `pending_count`. -/
def Obligations.FinishFrame : Prop :=
  ∀ s t : State, exec .finish s = .next t → t.err = s.err →
    t.extraSlots = s.extraSlots ∧ t.outCap = s.outCap ∧ t.blockSize = s.blockSize ∧
    t.miniBlockCount = s.miniBlockCount ∧ t.miniBlockSize = s.miniBlockSize ∧ t.configured = s.configured ∧
    t.totalValueCount = s.totalValueCount ∧ t.firstValue = s.firstValue ∧ t.previousValue = s.previousValue ∧
    t.rspTaken = s.rspTaken ∧ t.payTaken = s.payTaken ∧ t.inputs = s.inputs ∧ t.draws = s.draws ∧
    (∀ j, s.pendingCount.toNat ≤ j → t.pd.read j = s.pd.read j) ∧
    (s.finalized = true ∨ s.pendingCount = 0 → t.pd = s.pd ∧ t.pendingCount = s.pendingCount ∧
      t.minDelta = s.minDelta ∧ t.outputBuffer = s.outputBuffer)

/-- What CONFIG and RESET leave unchanged when they answer a next state: parameters, payload channel, what the host holds,
every slot from the block size on; RESET also the configuration and `configured`. -/
def Obligations.ConfigAndResetFrame : Prop :=
  ∀ (i : Instr) (s t : State), (∃ bs mc, i = .config bs mc) ∨ i = .reset → exec i s = .next t →
    t.extraSlots = s.extraSlots ∧ t.outCap = s.outCap ∧ t.payQueue = s.payQueue ∧ t.rspTaken = s.rspTaken ∧
    t.payTaken = s.payTaken ∧ t.inputs = s.inputs ∧ t.draws = s.draws ∧
    (∀ j, t.blockSize.toNat ≤ j → t.pd.read j = s.pd.read j) ∧
    (i = .reset → t.blockSize = s.blockSize ∧ t.miniBlockCount = s.miniBlockCount ∧
      t.miniBlockSize = s.miniBlockSize ∧ t.configured = s.configured)
end

