-- ==== Sys2Proof/Laws/Arith.lean ====
section
/-! SUPPORT. The arithmetic helpers and the byte lists of FLUSH_BLOCK. -/

namespace Sys2Proof.Machine

/-- `smin` is the minimum of the i32 readings (spec/00_scope.md R10). -/
theorem smin_toInt (a b : Word) : (smin a b).toInt = min a.toInt b.toInt := by
  unfold smin
  by_cases h : a.slt b
  · have : a.toInt < b.toInt := by simpa [BitVec.slt] using h
    simp [h]; omega
  · have : ¬ a.toInt < b.toInt := by simpa [BitVec.slt] using h
    simp [h]; omega

theorem smin_eq (a b : Word) : smin a b = a ∨ smin a b = b := by
  unfold smin; split
  · exact .inl rfl
  · exact .inr rfl

/-- `ceilDiv` is the least `q` with `q * b ≥ a` (spec/00_scope.md R10). -/
theorem ceilDiv_le_iff (a b q : Nat) (hb : 0 < b) : ceilDiv a b ≤ q ↔ a ≤ q * b := by
  unfold ceilDiv
  rw [← Nat.lt_succ_iff, Nat.div_lt_iff_lt_mul hb, Nat.succ_mul]
  omega

theorem lt_ceilDiv_iff (a b i : Nat) (hb : 0 < b) : i < ceilDiv a b ↔ i * b < a := by
  have := ceilDiv_le_iff a b i hb
  omega

@[simp] theorem fitsOut_none (len : Nat) : fitsOut none len = true := rfl

@[simp] theorem fitsOut_some (c len : Nat) : fitsOut (some c) len = decide (len ≤ c) := rfl

theorem fitsOut_mono {cap : Option Nat} {a b : Nat} (h : fitsOut cap b = true) (hab : a ≤ b) :
    fitsOut cap a = true := by
  cases cap with
  | none => rfl
  | some c => simp at h ⊢; omega

@[simp] theorem leBytes_length (k g : Nat) : (leBytes k g).length = k := by
  induction k generalizing g with
  | zero => rfl
  | succ k ih => simp [leBytes, ih]

@[simp] theorem widthBytes_length (m : Memory) (n mc mbs : Nat) : (widthBytes m n mc mbs).length = mc := by
  simp [widthBytes]

theorem packGroup_length (m : Memory) (w base : Nat) : (packGroup m w base).length = w := leBytes_length _ _

/-- A read of the OR: bit by bit, some slot of the range has the bit. -/
theorem Memory.orSlots_getLsbD (m : Memory) (lo k b : Nat) :
    (m.orSlots lo k).getLsbD b = true ↔ ∃ j < k, (m.read (lo + j)).getLsbD b = true := by
  induction k with
  | zero => simp [Memory.orSlots]
  | succ k ih =>
    simp only [Memory.orSlots, BitVec.getLsbD_or, Bool.or_eq_true, ih]
    constructor
    · rintro (⟨j, hj, h⟩ | h)
      · exact ⟨j, by omega, h⟩
      · exact ⟨k, by omega, h⟩
    · rintro ⟨j, hj, h⟩
      rcases Nat.lt_succ_iff_lt_or_eq.mp hj with hj | rfl
      · exact .inl ⟨j, hj, h⟩
      · exact .inr h

end Sys2Proof.Machine
end

