-- ==== Sys2Proof/Laws/Memory.lean ====
section
/-! SUPPORT. The PD memory: read after write, and that every operation keeps the canonical form `Memory.wf`. -/

namespace Sys2Proof.Machine

/-! ### Cell lists -/

theorem lookupCell_filter (p : Nat → Bool) (i : Nat) (h : p i = true) (cs : List (Nat × Word)) :
    lookupCell i (cs.filter fun c => p c.1) = lookupCell i cs := by
  induction cs with
  | nil => rfl
  | cons c cs ih =>
    by_cases hc : i = c.1
    · subst hc; simp [h, lookupCell]
    · by_cases hp : p c.1 <;> simp [hp, lookupCell, hc, ih]

theorem lookupCell_filter_none (p : Nat → Bool) (i : Nat) (h : p i = false) (cs : List (Nat × Word)) :
    lookupCell i (cs.filter fun c => p c.1) = none := by
  induction cs with
  | nil => rfl
  | cons c cs ih =>
    by_cases hp : p c.1
    · have hc : i ≠ c.1 := fun e => by simp [e, hp] at h
      simp [hp, lookupCell, hc, ih]
    · simp [hp, ih]

theorem lookupCell_putCell_self (i : Nat) (v : Word) (cs : List (Nat × Word)) :
    lookupCell i (putCell i v cs) = some v := by
  induction cs with
  | nil => simp [putCell, lookupCell]
  | cons c cs ih =>
    unfold putCell
    split
    · simp [lookupCell]
    · split
      · simp [lookupCell]
      · simp [lookupCell, *]

theorem lookupCell_putCell_other (i k : Nat) (v : Word) (h : k ≠ i) (cs : List (Nat × Word)) :
    lookupCell k (putCell i v cs) = lookupCell k cs := by
  induction cs with
  | nil => simp [putCell, lookupCell, h]
  | cons c cs ih =>
    unfold putCell
    split
    · simp [lookupCell, h]
    · split
      · next e => subst e; simp [lookupCell, h]
      · by_cases hk : k = c.1 <;> simp [lookupCell, hk, ih]

theorem mem_putCell {i : Nat} {v : Word} {cs : List (Nat × Word)} {c : Nat × Word} (h : c ∈ putCell i v cs) :
    c = (i, v) ∨ c ∈ cs := by
  induction cs with
  | nil => simpa [putCell] using h
  | cons d cs ih =>
    unfold putCell at h
    split at h
    · simpa using h
    · split at h
      · rcases List.mem_cons.mp h with h | h
        · exact .inl h
        · exact .inr (List.mem_cons_of_mem _ h)
      · rcases List.mem_cons.mp h with h | h
        · exact .inr (h ▸ List.mem_cons_self)
        · exact (ih h).imp id (List.mem_cons_of_mem _)

theorem putCell_sorted {i : Nat} {v : Word} {cs : List (Nat × Word)}
    (h : cs.Pairwise fun a b => a.1 < b.1) : (putCell i v cs).Pairwise fun a b => a.1 < b.1 := by
  induction cs with
  | nil => simp [putCell]
  | cons c cs ih =>
    rw [List.pairwise_cons] at h
    unfold putCell
    split
    · next hi =>
      refine List.pairwise_cons.mpr ⟨?_, List.pairwise_cons.mpr h⟩
      intro d hd
      rcases List.mem_cons.mp hd with rfl | hd
      · exact hi
      · exact lt_trans hi (h.1 d hd)
    · split
      · next e => exact List.pairwise_cons.mpr ⟨fun d hd => e ▸ h.1 d hd, h.2⟩
      · next h1 h2 =>
        refine List.pairwise_cons.mpr ⟨?_, ih h.2⟩
        intro d hd
        rcases mem_putCell hd with rfl | hd
        · exact lt_of_le_of_ne (not_lt.mp h1) (Ne.symm h2)
        · exact h.1 d hd

/-! ### Reading -/

@[simp] theorem Memory.write_unlisted (m : Memory) (i : Nat) (v : Word) (k : Nat) :
    (m.write i v).unlisted k = m.unlisted k := by
  unfold Memory.write; split <;> rfl

@[simp] theorem Memory.write_zeroed (m : Memory) (i : Nat) (v : Word) : (m.write i v).zeroed = m.zeroed := by
  unfold Memory.write; split <;> rfl

@[simp] theorem Memory.write_draw (m : Memory) (i : Nat) (v : Word) : (m.write i v).draw = m.draw := by
  unfold Memory.write; split <;> rfl

/-- A read after a write to the same slot gives the value written (spec/20_memory.md R36). -/
@[simp] theorem Memory.read_write_same (m : Memory) (i : Nat) (v : Word) : (m.write i v).read i = v := by
  unfold Memory.read
  rw [Memory.write_unlisted]
  unfold Memory.write
  split
  · next h =>
    have := lookupCell_filter_none (fun j => decide (j ≠ i)) i (by simp) m.cells
    simp only [this, Option.getD_none, ← h]
  · simp [lookupCell_putCell_self]

/-- A write leaves every other slot alone. -/
theorem Memory.read_write_other (m : Memory) (i k : Nat) (v : Word) (h : k ≠ i) :
    (m.write i v).read k = m.read k := by
  unfold Memory.read
  rw [Memory.write_unlisted]
  unfold Memory.write
  split
  · next =>
    have := lookupCell_filter (fun j => decide (j ≠ i)) k (by simpa using h) m.cells
    simp only [this]
  · simp [lookupCell_putCell_other _ _ _ h]

theorem Memory.read_write (m : Memory) (i k : Nat) (v : Word) :
    (m.write i v).read k = if k = i then v else m.read k := by
  split
  · next h => subst h; simp
  · next h => exact m.read_write_other i k v h

/-- A zero-filled slot reads 0, every other slot reads as before. -/
theorem Memory.read_zeroFill (m : Memory) (n k : Nat) :
    (m.zeroFill n).read k = if k < n then 0 else m.read k := by
  by_cases h : k < n
  · have hn := lookupCell_filter_none (fun j => decide (n ≤ j)) k (by simpa using h) m.cells
    have hz : k < max m.zeroed n := lt_of_lt_of_le h (Nat.le_max_right ..)
    simp only [Memory.read, Memory.zeroFill, Memory.unlisted, hn, hz, h, if_true, Option.getD_none]
  · have hn := lookupCell_filter (fun j => decide (n ≤ j)) k (by simpa using h) m.cells
    simp only [Memory.read, Memory.zeroFill, Memory.unlisted, hn, h, if_false, lt_sup_iff, or_false]

/-- What step 1 of FLUSH_BLOCK leaves in every slot (spec/42_flush_block.md R82). -/
theorem Memory.read_subtractMin (min : Word) (n : Nat) (m : Memory) (k : Nat) :
    (m.subtractMin min n).read k = if k < n then m.read k - min else m.read k := by
  induction n generalizing k with
  | zero => simp [Memory.subtractMin]
  | succ n ih =>
    simp only [Memory.subtractMin, Memory.read_write, ih]
    rcases Nat.lt_trichotomy k n with h | h | h
    · simp [h, Nat.lt_succ_of_lt h, Nat.ne_of_lt h]
    · subst h; simp
    · have : ¬ k < n := by omega
      have h2 : ¬ k < n + 1 := by omega
      simp [this, h2, Nat.ne_of_gt h]

theorem Memory.read_unspecified (d k : Nat) : (Memory.unspecified d).read k = Config.freeSlot d k := by
  simp [Memory.read, Memory.unspecified, lookupCell, Memory.unlisted]

/-! ### The canonical form is kept -/

theorem Memory.wf_unspecified (d : Nat) : (Memory.unspecified d).wf := by
  simp [Memory.wf, Memory.unspecified]

theorem Memory.wf_write {m : Memory} (h : m.wf) (i : Nat) (v : Word) : (m.write i v).wf := by
  obtain ⟨hs, hl⟩ := h
  refine ⟨?_, ?_⟩
  · unfold Memory.write
    split
    · exact hs.filter _
    · exact putCell_sorted hs
  · intro c hc
    rw [Memory.write_unlisted]
    unfold Memory.write at hc
    split at hc
    · exact hl c (List.mem_filter.mp hc).1
    · next hv =>
      rcases mem_putCell hc with rfl | hc
      · exact hv
      · exact hl c hc

theorem Memory.wf_zeroFill {m : Memory} (h : m.wf) (n : Nat) : (m.zeroFill n).wf := by
  obtain ⟨hs, hl⟩ := h
  refine ⟨hs.filter _, ?_⟩
  intro c hc
  obtain ⟨hc, hn⟩ := List.mem_filter.mp hc
  have := hl c hc
  unfold Memory.unlisted at this ⊢
  have hn : ¬ c.1 < n := by simpa using hn
  simpa [Memory.zeroFill, hn] using this

theorem Memory.wf_subtractMin {m : Memory} (h : m.wf) (min : Word) (n : Nat) : (m.subtractMin min n).wf := by
  induction n with
  | zero => exact h
  | succ n ih => exact Memory.wf_write ih _ _

end Sys2Proof.Machine
end

