-- ==== Sys2Proof/Laws/State.lean ====
section
/-! SUPPORT. What each update of the state leaves in each field. -/

namespace Sys2Proof.Machine

/-! ### withErr -/

@[simp] theorem State.withErr_extraSlots (s : State) (c : FaultCode) : (s.withErr c).extraSlots = s.extraSlots := rfl
@[simp] theorem State.withErr_outCap (s : State) (c : FaultCode) : (s.withErr c).outCap = s.outCap := rfl
@[simp] theorem State.withErr_blockSize (s : State) (c : FaultCode) : (s.withErr c).blockSize = s.blockSize := rfl
@[simp] theorem State.withErr_miniBlockCount (s : State) (c : FaultCode) : (s.withErr c).miniBlockCount = s.miniBlockCount := rfl
@[simp] theorem State.withErr_miniBlockSize (s : State) (c : FaultCode) : (s.withErr c).miniBlockSize = s.miniBlockSize := rfl
@[simp] theorem State.withErr_totalValueCount (s : State) (c : FaultCode) : (s.withErr c).totalValueCount = s.totalValueCount := rfl
@[simp] theorem State.withErr_firstValue (s : State) (c : FaultCode) : (s.withErr c).firstValue = s.firstValue := rfl
@[simp] theorem State.withErr_previousValue (s : State) (c : FaultCode) : (s.withErr c).previousValue = s.previousValue := rfl
@[simp] theorem State.withErr_pd (s : State) (c : FaultCode) : (s.withErr c).pd = s.pd := rfl
@[simp] theorem State.withErr_pendingCount (s : State) (c : FaultCode) : (s.withErr c).pendingCount = s.pendingCount := rfl
@[simp] theorem State.withErr_minDelta (s : State) (c : FaultCode) : (s.withErr c).minDelta = s.minDelta := rfl
@[simp] theorem State.withErr_outputBuffer (s : State) (c : FaultCode) : (s.withErr c).outputBuffer = s.outputBuffer := rfl
@[simp] theorem State.withErr_configured (s : State) (c : FaultCode) : (s.withErr c).configured = s.configured := rfl
@[simp] theorem State.withErr_finalized (s : State) (c : FaultCode) : (s.withErr c).finalized = s.finalized := rfl
@[simp] theorem State.withErr_err (s : State) (c : FaultCode) : (s.withErr c).err = c.code := rfl
@[simp] theorem State.withErr_rspQueue (s : State) (c : FaultCode) : (s.withErr c).rspQueue = s.rspQueue := rfl
@[simp] theorem State.withErr_payQueue (s : State) (c : FaultCode) : (s.withErr c).payQueue = s.payQueue := rfl
@[simp] theorem State.withErr_rspTaken (s : State) (c : FaultCode) : (s.withErr c).rspTaken = s.rspTaken := rfl
@[simp] theorem State.withErr_payTaken (s : State) (c : FaultCode) : (s.withErr c).payTaken = s.payTaken := rfl
@[simp] theorem State.withErr_inputs (s : State) (c : FaultCode) : (s.withErr c).inputs = s.inputs := rfl
@[simp] theorem State.withErr_draws (s : State) (c : FaultCode) : (s.withErr c).draws = s.draws := rfl

/-! ### withResponse -/

@[simp] theorem State.withResponse_extraSlots (s : State) (p : Option (List Byte)) : (s.withResponse p).extraSlots = s.extraSlots := rfl
@[simp] theorem State.withResponse_outCap (s : State) (p : Option (List Byte)) : (s.withResponse p).outCap = s.outCap := rfl
@[simp] theorem State.withResponse_blockSize (s : State) (p : Option (List Byte)) : (s.withResponse p).blockSize = s.blockSize := rfl
@[simp] theorem State.withResponse_miniBlockCount (s : State) (p : Option (List Byte)) : (s.withResponse p).miniBlockCount = s.miniBlockCount := rfl
@[simp] theorem State.withResponse_miniBlockSize (s : State) (p : Option (List Byte)) : (s.withResponse p).miniBlockSize = s.miniBlockSize := rfl
@[simp] theorem State.withResponse_totalValueCount (s : State) (p : Option (List Byte)) : (s.withResponse p).totalValueCount = s.totalValueCount := rfl
@[simp] theorem State.withResponse_firstValue (s : State) (p : Option (List Byte)) : (s.withResponse p).firstValue = s.firstValue := rfl
@[simp] theorem State.withResponse_previousValue (s : State) (p : Option (List Byte)) : (s.withResponse p).previousValue = s.previousValue := rfl
@[simp] theorem State.withResponse_pd (s : State) (p : Option (List Byte)) : (s.withResponse p).pd = s.pd := rfl
@[simp] theorem State.withResponse_pendingCount (s : State) (p : Option (List Byte)) : (s.withResponse p).pendingCount = s.pendingCount := rfl
@[simp] theorem State.withResponse_minDelta (s : State) (p : Option (List Byte)) : (s.withResponse p).minDelta = s.minDelta := rfl
@[simp] theorem State.withResponse_outputBuffer (s : State) (p : Option (List Byte)) : (s.withResponse p).outputBuffer = s.outputBuffer := rfl
@[simp] theorem State.withResponse_configured (s : State) (p : Option (List Byte)) : (s.withResponse p).configured = s.configured := rfl
@[simp] theorem State.withResponse_finalized (s : State) (p : Option (List Byte)) : (s.withResponse p).finalized = s.finalized := rfl
@[simp] theorem State.withResponse_err (s : State) (p : Option (List Byte)) : (s.withResponse p).err = s.err := rfl
@[simp] theorem State.withResponse_rspQueue (s : State) (p : Option (List Byte)) : (s.withResponse p).rspQueue = s.rspQueue ++ [{ status := s.status, hasPayload := p.isSome }] := rfl
@[simp] theorem State.withResponse_payQueue (s : State) (p : Option (List Byte)) : (s.withResponse p).payQueue = s.payQueue ++ payBeats (p.getD []) := rfl
@[simp] theorem State.withResponse_rspTaken (s : State) (p : Option (List Byte)) : (s.withResponse p).rspTaken = s.rspTaken := rfl
@[simp] theorem State.withResponse_payTaken (s : State) (p : Option (List Byte)) : (s.withResponse p).payTaken = s.payTaken := rfl
@[simp] theorem State.withResponse_inputs (s : State) (p : Option (List Byte)) : (s.withResponse p).inputs = s.inputs := rfl
@[simp] theorem State.withResponse_draws (s : State) (p : Option (List Byte)) : (s.withResponse p).draws = s.draws := rfl

/-! ### drain -/

@[simp] theorem State.drain_extraSlots (s : State) : (s.drain).extraSlots = s.extraSlots := rfl
@[simp] theorem State.drain_outCap (s : State) : (s.drain).outCap = s.outCap := rfl
@[simp] theorem State.drain_blockSize (s : State) : (s.drain).blockSize = s.blockSize := rfl
@[simp] theorem State.drain_miniBlockCount (s : State) : (s.drain).miniBlockCount = s.miniBlockCount := rfl
@[simp] theorem State.drain_miniBlockSize (s : State) : (s.drain).miniBlockSize = s.miniBlockSize := rfl
@[simp] theorem State.drain_totalValueCount (s : State) : (s.drain).totalValueCount = s.totalValueCount := rfl
@[simp] theorem State.drain_firstValue (s : State) : (s.drain).firstValue = s.firstValue := rfl
@[simp] theorem State.drain_previousValue (s : State) : (s.drain).previousValue = s.previousValue := rfl
@[simp] theorem State.drain_pd (s : State) : (s.drain).pd = s.pd := rfl
@[simp] theorem State.drain_pendingCount (s : State) : (s.drain).pendingCount = s.pendingCount := rfl
@[simp] theorem State.drain_minDelta (s : State) : (s.drain).minDelta = s.minDelta := rfl
@[simp] theorem State.drain_outputBuffer (s : State) : (s.drain).outputBuffer = s.outputBuffer := rfl
@[simp] theorem State.drain_configured (s : State) : (s.drain).configured = s.configured := rfl
@[simp] theorem State.drain_finalized (s : State) : (s.drain).finalized = s.finalized := rfl
@[simp] theorem State.drain_err (s : State) : (s.drain).err = s.err := rfl
@[simp] theorem State.drain_rspQueue (s : State) : (s.drain).rspQueue = [] := rfl
@[simp] theorem State.drain_payQueue (s : State) : (s.drain).payQueue = [] := rfl
@[simp] theorem State.drain_rspTaken (s : State) : (s.drain).rspTaken = s.rspTaken ++ s.rspQueue := rfl
@[simp] theorem State.drain_payTaken (s : State) : (s.drain).payTaken = s.payTaken ++ s.payQueue := rfl
@[simp] theorem State.drain_inputs (s : State) : (s.drain).inputs = s.inputs := rfl
@[simp] theorem State.drain_draws (s : State) : (s.drain).draws = s.draws := rfl

/-! ### hardReset -/

@[simp] theorem State.hardReset_extraSlots (s : State) : (s.hardReset).extraSlots = s.extraSlots := rfl
@[simp] theorem State.hardReset_outCap (s : State) : (s.hardReset).outCap = s.outCap := rfl
@[simp] theorem State.hardReset_blockSize (s : State) : (s.hardReset).blockSize = Config.freeWord s.draws 0 := rfl
@[simp] theorem State.hardReset_miniBlockCount (s : State) : (s.hardReset).miniBlockCount = Config.freeWord s.draws 1 := rfl
@[simp] theorem State.hardReset_miniBlockSize (s : State) : (s.hardReset).miniBlockSize = Config.freeWord s.draws 2 := rfl
@[simp] theorem State.hardReset_totalValueCount (s : State) : (s.hardReset).totalValueCount = 0 := rfl
@[simp] theorem State.hardReset_firstValue (s : State) : (s.hardReset).firstValue = 0 := rfl
@[simp] theorem State.hardReset_previousValue (s : State) : (s.hardReset).previousValue = 0 := rfl
@[simp] theorem State.hardReset_pd (s : State) : (s.hardReset).pd = Memory.unspecified s.draws := rfl
@[simp] theorem State.hardReset_pendingCount (s : State) : (s.hardReset).pendingCount = 0 := rfl
@[simp] theorem State.hardReset_minDelta (s : State) : (s.hardReset).minDelta = unsetMin := rfl
@[simp] theorem State.hardReset_outputBuffer (s : State) : (s.hardReset).outputBuffer = [] := rfl
@[simp] theorem State.hardReset_configured (s : State) : (s.hardReset).configured = false := rfl
@[simp] theorem State.hardReset_finalized (s : State) : (s.hardReset).finalized = false := rfl
@[simp] theorem State.hardReset_err (s : State) : (s.hardReset).err = 0 := rfl
@[simp] theorem State.hardReset_rspQueue (s : State) : (s.hardReset).rspQueue = [] := rfl
@[simp] theorem State.hardReset_payQueue (s : State) : (s.hardReset).payQueue = [] := rfl
@[simp] theorem State.hardReset_rspTaken (s : State) : (s.hardReset).rspTaken = s.rspTaken := rfl
@[simp] theorem State.hardReset_payTaken (s : State) : (s.hardReset).payTaken = s.payTaken := rfl
@[simp] theorem State.hardReset_inputs (s : State) : (s.hardReset).inputs = s.inputs := rfl
@[simp] theorem State.hardReset_draws (s : State) : (s.hardReset).draws = s.draws + 1 := rfl

/-! ### clearPage -/

@[simp] theorem State.clearPage_extraSlots (s : State) : (s.clearPage).extraSlots = s.extraSlots := rfl
@[simp] theorem State.clearPage_outCap (s : State) : (s.clearPage).outCap = s.outCap := rfl
@[simp] theorem State.clearPage_blockSize (s : State) : (s.clearPage).blockSize = s.blockSize := rfl
@[simp] theorem State.clearPage_miniBlockCount (s : State) : (s.clearPage).miniBlockCount = s.miniBlockCount := rfl
@[simp] theorem State.clearPage_miniBlockSize (s : State) : (s.clearPage).miniBlockSize = s.miniBlockSize := rfl
@[simp] theorem State.clearPage_totalValueCount (s : State) : (s.clearPage).totalValueCount = 0 := rfl
@[simp] theorem State.clearPage_firstValue (s : State) : (s.clearPage).firstValue = 0 := rfl
@[simp] theorem State.clearPage_previousValue (s : State) : (s.clearPage).previousValue = 0 := rfl
@[simp] theorem State.clearPage_pd (s : State) : (s.clearPage).pd = s.pd.zeroFill s.blockSize.toNat := rfl
@[simp] theorem State.clearPage_pendingCount (s : State) : (s.clearPage).pendingCount = 0 := rfl
@[simp] theorem State.clearPage_minDelta (s : State) : (s.clearPage).minDelta = unsetMin := rfl
@[simp] theorem State.clearPage_outputBuffer (s : State) : (s.clearPage).outputBuffer = [] := rfl
@[simp] theorem State.clearPage_configured (s : State) : (s.clearPage).configured = s.configured := rfl
@[simp] theorem State.clearPage_finalized (s : State) : (s.clearPage).finalized = false := rfl
@[simp] theorem State.clearPage_err (s : State) : (s.clearPage).err = s.err := rfl
@[simp] theorem State.clearPage_rspQueue (s : State) : (s.clearPage).rspQueue = s.rspQueue := rfl
@[simp] theorem State.clearPage_payQueue (s : State) : (s.clearPage).payQueue = s.payQueue := rfl
@[simp] theorem State.clearPage_rspTaken (s : State) : (s.clearPage).rspTaken = s.rspTaken := rfl
@[simp] theorem State.clearPage_payTaken (s : State) : (s.clearPage).payTaken = s.payTaken := rfl
@[simp] theorem State.clearPage_inputs (s : State) : (s.clearPage).inputs = s.inputs := rfl
@[simp] theorem State.clearPage_draws (s : State) : (s.clearPage).draws = s.draws := rfl

/-! ### loseData -/

@[simp] theorem State.loseData_extraSlots (s : State) : (s.loseData).extraSlots = s.extraSlots := rfl
@[simp] theorem State.loseData_outCap (s : State) : (s.loseData).outCap = s.outCap := rfl
@[simp] theorem State.loseData_blockSize (s : State) : (s.loseData).blockSize = s.blockSize := rfl
@[simp] theorem State.loseData_miniBlockCount (s : State) : (s.loseData).miniBlockCount = s.miniBlockCount := rfl
@[simp] theorem State.loseData_miniBlockSize (s : State) : (s.loseData).miniBlockSize = s.miniBlockSize := rfl
@[simp] theorem State.loseData_totalValueCount (s : State) : (s.loseData).totalValueCount = Config.freeWord s.draws 0 := rfl
@[simp] theorem State.loseData_firstValue (s : State) : (s.loseData).firstValue = Config.freeWord s.draws 1 := rfl
@[simp] theorem State.loseData_previousValue (s : State) : (s.loseData).previousValue = Config.freeWord s.draws 2 := rfl
@[simp] theorem State.loseData_pd (s : State) : (s.loseData).pd = Memory.unspecified s.draws := rfl
@[simp] theorem State.loseData_pendingCount (s : State) : (s.loseData).pendingCount = Config.freeWord s.draws 3 := rfl
@[simp] theorem State.loseData_minDelta (s : State) : (s.loseData).minDelta = Config.freeWord s.draws 4 := rfl
@[simp] theorem State.loseData_outputBuffer (s : State) : (s.loseData).outputBuffer = (Config.freeBytes s.draws).take (s.outCap.getD 0) := rfl
@[simp] theorem State.loseData_configured (s : State) : (s.loseData).configured = s.configured := rfl
@[simp] theorem State.loseData_finalized (s : State) : (s.loseData).finalized = s.finalized := rfl
@[simp] theorem State.loseData_err (s : State) : (s.loseData).err = s.err := rfl
@[simp] theorem State.loseData_rspQueue (s : State) : (s.loseData).rspQueue = s.rspQueue := rfl
@[simp] theorem State.loseData_payQueue (s : State) : (s.loseData).payQueue = s.payQueue := rfl
@[simp] theorem State.loseData_rspTaken (s : State) : (s.loseData).rspTaken = s.rspTaken := rfl
@[simp] theorem State.loseData_payTaken (s : State) : (s.loseData).payTaken = s.payTaken := rfl
@[simp] theorem State.loseData_inputs (s : State) : (s.loseData).inputs = s.inputs := rfl
@[simp] theorem State.loseData_draws (s : State) : (s.loseData).draws = s.draws + 1 := rfl

/-! ### flushedWith -/

@[simp] theorem State.flushedWith_extraSlots (s : State) (m : Memory) (bytes : List Byte) : (s.flushedWith m bytes).extraSlots = s.extraSlots := rfl
@[simp] theorem State.flushedWith_outCap (s : State) (m : Memory) (bytes : List Byte) : (s.flushedWith m bytes).outCap = s.outCap := rfl
@[simp] theorem State.flushedWith_blockSize (s : State) (m : Memory) (bytes : List Byte) : (s.flushedWith m bytes).blockSize = s.blockSize := rfl
@[simp] theorem State.flushedWith_miniBlockCount (s : State) (m : Memory) (bytes : List Byte) : (s.flushedWith m bytes).miniBlockCount = s.miniBlockCount := rfl
@[simp] theorem State.flushedWith_miniBlockSize (s : State) (m : Memory) (bytes : List Byte) : (s.flushedWith m bytes).miniBlockSize = s.miniBlockSize := rfl
@[simp] theorem State.flushedWith_totalValueCount (s : State) (m : Memory) (bytes : List Byte) : (s.flushedWith m bytes).totalValueCount = s.totalValueCount := rfl
@[simp] theorem State.flushedWith_firstValue (s : State) (m : Memory) (bytes : List Byte) : (s.flushedWith m bytes).firstValue = s.firstValue := rfl
@[simp] theorem State.flushedWith_previousValue (s : State) (m : Memory) (bytes : List Byte) : (s.flushedWith m bytes).previousValue = s.previousValue := rfl
@[simp] theorem State.flushedWith_pd (s : State) (m : Memory) (bytes : List Byte) : (s.flushedWith m bytes).pd = m := rfl
@[simp] theorem State.flushedWith_pendingCount (s : State) (m : Memory) (bytes : List Byte) : (s.flushedWith m bytes).pendingCount = 0 := rfl
@[simp] theorem State.flushedWith_minDelta (s : State) (m : Memory) (bytes : List Byte) : (s.flushedWith m bytes).minDelta = unsetMin := rfl
@[simp] theorem State.flushedWith_outputBuffer (s : State) (m : Memory) (bytes : List Byte) : (s.flushedWith m bytes).outputBuffer = s.outputBuffer ++ bytes := rfl
@[simp] theorem State.flushedWith_configured (s : State) (m : Memory) (bytes : List Byte) : (s.flushedWith m bytes).configured = s.configured := rfl
@[simp] theorem State.flushedWith_finalized (s : State) (m : Memory) (bytes : List Byte) : (s.flushedWith m bytes).finalized = s.finalized := rfl
@[simp] theorem State.flushedWith_err (s : State) (m : Memory) (bytes : List Byte) : (s.flushedWith m bytes).err = s.err := rfl
@[simp] theorem State.flushedWith_rspQueue (s : State) (m : Memory) (bytes : List Byte) : (s.flushedWith m bytes).rspQueue = s.rspQueue := rfl
@[simp] theorem State.flushedWith_payQueue (s : State) (m : Memory) (bytes : List Byte) : (s.flushedWith m bytes).payQueue = s.payQueue := rfl
@[simp] theorem State.flushedWith_rspTaken (s : State) (m : Memory) (bytes : List Byte) : (s.flushedWith m bytes).rspTaken = s.rspTaken := rfl
@[simp] theorem State.flushedWith_payTaken (s : State) (m : Memory) (bytes : List Byte) : (s.flushedWith m bytes).payTaken = s.payTaken := rfl
@[simp] theorem State.flushedWith_inputs (s : State) (m : Memory) (bytes : List Byte) : (s.flushedWith m bytes).inputs = s.inputs := rfl
@[simp] theorem State.flushedWith_draws (s : State) (m : Memory) (bytes : List Byte) : (s.flushedWith m bytes).draws = s.draws := rfl

/-! ### withConfig -/

@[simp] theorem State.withConfig_extraSlots (s : State) (bs mc : Word) : (s.withConfig bs mc).extraSlots = s.extraSlots := rfl
@[simp] theorem State.withConfig_outCap (s : State) (bs mc : Word) : (s.withConfig bs mc).outCap = s.outCap := rfl
@[simp] theorem State.withConfig_blockSize (s : State) (bs mc : Word) : (s.withConfig bs mc).blockSize = bs := rfl
@[simp] theorem State.withConfig_miniBlockCount (s : State) (bs mc : Word) : (s.withConfig bs mc).miniBlockCount = mc := rfl
@[simp] theorem State.withConfig_miniBlockSize (s : State) (bs mc : Word) : (s.withConfig bs mc).miniBlockSize = bs / mc := rfl
@[simp] theorem State.withConfig_totalValueCount (s : State) (bs mc : Word) : (s.withConfig bs mc).totalValueCount = s.totalValueCount := rfl
@[simp] theorem State.withConfig_firstValue (s : State) (bs mc : Word) : (s.withConfig bs mc).firstValue = s.firstValue := rfl
@[simp] theorem State.withConfig_previousValue (s : State) (bs mc : Word) : (s.withConfig bs mc).previousValue = s.previousValue := rfl
@[simp] theorem State.withConfig_pd (s : State) (bs mc : Word) : (s.withConfig bs mc).pd = s.pd := rfl
@[simp] theorem State.withConfig_pendingCount (s : State) (bs mc : Word) : (s.withConfig bs mc).pendingCount = s.pendingCount := rfl
@[simp] theorem State.withConfig_minDelta (s : State) (bs mc : Word) : (s.withConfig bs mc).minDelta = s.minDelta := rfl
@[simp] theorem State.withConfig_outputBuffer (s : State) (bs mc : Word) : (s.withConfig bs mc).outputBuffer = s.outputBuffer := rfl
@[simp] theorem State.withConfig_configured (s : State) (bs mc : Word) : (s.withConfig bs mc).configured = true := rfl
@[simp] theorem State.withConfig_finalized (s : State) (bs mc : Word) : (s.withConfig bs mc).finalized = s.finalized := rfl
@[simp] theorem State.withConfig_err (s : State) (bs mc : Word) : (s.withConfig bs mc).err = s.err := rfl
@[simp] theorem State.withConfig_rspQueue (s : State) (bs mc : Word) : (s.withConfig bs mc).rspQueue = s.rspQueue := rfl
@[simp] theorem State.withConfig_payQueue (s : State) (bs mc : Word) : (s.withConfig bs mc).payQueue = s.payQueue := rfl
@[simp] theorem State.withConfig_rspTaken (s : State) (bs mc : Word) : (s.withConfig bs mc).rspTaken = s.rspTaken := rfl
@[simp] theorem State.withConfig_payTaken (s : State) (bs mc : Word) : (s.withConfig bs mc).payTaken = s.payTaken := rfl
@[simp] theorem State.withConfig_inputs (s : State) (bs mc : Word) : (s.withConfig bs mc).inputs = s.inputs := rfl
@[simp] theorem State.withConfig_draws (s : State) (bs mc : Word) : (s.withConfig bs mc).draws = s.draws := rfl

/-! ### recordFirst -/

@[simp] theorem State.recordFirst_extraSlots (s : State) (v : Word) : (s.recordFirst v).extraSlots = s.extraSlots := rfl
@[simp] theorem State.recordFirst_outCap (s : State) (v : Word) : (s.recordFirst v).outCap = s.outCap := rfl
@[simp] theorem State.recordFirst_blockSize (s : State) (v : Word) : (s.recordFirst v).blockSize = s.blockSize := rfl
@[simp] theorem State.recordFirst_miniBlockCount (s : State) (v : Word) : (s.recordFirst v).miniBlockCount = s.miniBlockCount := rfl
@[simp] theorem State.recordFirst_miniBlockSize (s : State) (v : Word) : (s.recordFirst v).miniBlockSize = s.miniBlockSize := rfl
@[simp] theorem State.recordFirst_totalValueCount (s : State) (v : Word) : (s.recordFirst v).totalValueCount = 1 := rfl
@[simp] theorem State.recordFirst_firstValue (s : State) (v : Word) : (s.recordFirst v).firstValue = v := rfl
@[simp] theorem State.recordFirst_previousValue (s : State) (v : Word) : (s.recordFirst v).previousValue = v := rfl
@[simp] theorem State.recordFirst_pd (s : State) (v : Word) : (s.recordFirst v).pd = s.pd := rfl
@[simp] theorem State.recordFirst_pendingCount (s : State) (v : Word) : (s.recordFirst v).pendingCount = s.pendingCount := rfl
@[simp] theorem State.recordFirst_minDelta (s : State) (v : Word) : (s.recordFirst v).minDelta = s.minDelta := rfl
@[simp] theorem State.recordFirst_outputBuffer (s : State) (v : Word) : (s.recordFirst v).outputBuffer = s.outputBuffer := rfl
@[simp] theorem State.recordFirst_configured (s : State) (v : Word) : (s.recordFirst v).configured = s.configured := rfl
@[simp] theorem State.recordFirst_finalized (s : State) (v : Word) : (s.recordFirst v).finalized = s.finalized := rfl
@[simp] theorem State.recordFirst_err (s : State) (v : Word) : (s.recordFirst v).err = s.err := rfl
@[simp] theorem State.recordFirst_rspQueue (s : State) (v : Word) : (s.recordFirst v).rspQueue = s.rspQueue := rfl
@[simp] theorem State.recordFirst_payQueue (s : State) (v : Word) : (s.recordFirst v).payQueue = s.payQueue := rfl
@[simp] theorem State.recordFirst_rspTaken (s : State) (v : Word) : (s.recordFirst v).rspTaken = s.rspTaken := rfl
@[simp] theorem State.recordFirst_payTaken (s : State) (v : Word) : (s.recordFirst v).payTaken = s.payTaken := rfl
@[simp] theorem State.recordFirst_inputs (s : State) (v : Word) : (s.recordFirst v).inputs = s.inputs := rfl
@[simp] theorem State.recordFirst_draws (s : State) (v : Word) : (s.recordFirst v).draws = s.draws := rfl

/-! ### recordDelta -/

@[simp] theorem State.recordDelta_extraSlots (s : State) (v : Word) : (s.recordDelta v).extraSlots = s.extraSlots := rfl
@[simp] theorem State.recordDelta_outCap (s : State) (v : Word) : (s.recordDelta v).outCap = s.outCap := rfl
@[simp] theorem State.recordDelta_blockSize (s : State) (v : Word) : (s.recordDelta v).blockSize = s.blockSize := rfl
@[simp] theorem State.recordDelta_miniBlockCount (s : State) (v : Word) : (s.recordDelta v).miniBlockCount = s.miniBlockCount := rfl
@[simp] theorem State.recordDelta_miniBlockSize (s : State) (v : Word) : (s.recordDelta v).miniBlockSize = s.miniBlockSize := rfl
@[simp] theorem State.recordDelta_totalValueCount (s : State) (v : Word) : (s.recordDelta v).totalValueCount = s.totalValueCount + 1 := rfl
@[simp] theorem State.recordDelta_firstValue (s : State) (v : Word) : (s.recordDelta v).firstValue = s.firstValue := rfl
@[simp] theorem State.recordDelta_previousValue (s : State) (v : Word) : (s.recordDelta v).previousValue = v := rfl
@[simp] theorem State.recordDelta_pd (s : State) (v : Word) : (s.recordDelta v).pd = s.pd.write s.pendingCount.toNat (delta s v) := rfl
@[simp] theorem State.recordDelta_pendingCount (s : State) (v : Word) : (s.recordDelta v).pendingCount = s.pendingCount + 1 := rfl
@[simp] theorem State.recordDelta_minDelta (s : State) (v : Word) : (s.recordDelta v).minDelta = smin s.minDelta (delta s v) := rfl
@[simp] theorem State.recordDelta_outputBuffer (s : State) (v : Word) : (s.recordDelta v).outputBuffer = s.outputBuffer := rfl
@[simp] theorem State.recordDelta_configured (s : State) (v : Word) : (s.recordDelta v).configured = s.configured := rfl
@[simp] theorem State.recordDelta_finalized (s : State) (v : Word) : (s.recordDelta v).finalized = s.finalized := rfl
@[simp] theorem State.recordDelta_err (s : State) (v : Word) : (s.recordDelta v).err = s.err := rfl
@[simp] theorem State.recordDelta_rspQueue (s : State) (v : Word) : (s.recordDelta v).rspQueue = s.rspQueue := rfl
@[simp] theorem State.recordDelta_payQueue (s : State) (v : Word) : (s.recordDelta v).payQueue = s.payQueue := rfl
@[simp] theorem State.recordDelta_rspTaken (s : State) (v : Word) : (s.recordDelta v).rspTaken = s.rspTaken := rfl
@[simp] theorem State.recordDelta_payTaken (s : State) (v : Word) : (s.recordDelta v).payTaken = s.payTaken := rfl
@[simp] theorem State.recordDelta_inputs (s : State) (v : Word) : (s.recordDelta v).inputs = s.inputs := rfl
@[simp] theorem State.recordDelta_draws (s : State) (v : Word) : (s.recordDelta v).draws = s.draws := rfl

/-! ### withFinalized -/

@[simp] theorem State.withFinalized_extraSlots (s : State) : (s.withFinalized).extraSlots = s.extraSlots := rfl
@[simp] theorem State.withFinalized_outCap (s : State) : (s.withFinalized).outCap = s.outCap := rfl
@[simp] theorem State.withFinalized_blockSize (s : State) : (s.withFinalized).blockSize = s.blockSize := rfl
@[simp] theorem State.withFinalized_miniBlockCount (s : State) : (s.withFinalized).miniBlockCount = s.miniBlockCount := rfl
@[simp] theorem State.withFinalized_miniBlockSize (s : State) : (s.withFinalized).miniBlockSize = s.miniBlockSize := rfl
@[simp] theorem State.withFinalized_totalValueCount (s : State) : (s.withFinalized).totalValueCount = s.totalValueCount := rfl
@[simp] theorem State.withFinalized_firstValue (s : State) : (s.withFinalized).firstValue = s.firstValue := rfl
@[simp] theorem State.withFinalized_previousValue (s : State) : (s.withFinalized).previousValue = s.previousValue := rfl
@[simp] theorem State.withFinalized_pd (s : State) : (s.withFinalized).pd = s.pd := rfl
@[simp] theorem State.withFinalized_pendingCount (s : State) : (s.withFinalized).pendingCount = s.pendingCount := rfl
@[simp] theorem State.withFinalized_minDelta (s : State) : (s.withFinalized).minDelta = s.minDelta := rfl
@[simp] theorem State.withFinalized_outputBuffer (s : State) : (s.withFinalized).outputBuffer = s.outputBuffer := rfl
@[simp] theorem State.withFinalized_configured (s : State) : (s.withFinalized).configured = s.configured := rfl
@[simp] theorem State.withFinalized_finalized (s : State) : (s.withFinalized).finalized = true := rfl
@[simp] theorem State.withFinalized_err (s : State) : (s.withFinalized).err = s.err := rfl
@[simp] theorem State.withFinalized_rspQueue (s : State) : (s.withFinalized).rspQueue = s.rspQueue := rfl
@[simp] theorem State.withFinalized_payQueue (s : State) : (s.withFinalized).payQueue = s.payQueue := rfl
@[simp] theorem State.withFinalized_rspTaken (s : State) : (s.withFinalized).rspTaken = s.rspTaken := rfl
@[simp] theorem State.withFinalized_payTaken (s : State) : (s.withFinalized).payTaken = s.payTaken := rfl
@[simp] theorem State.withFinalized_inputs (s : State) : (s.withFinalized).inputs = s.inputs := rfl
@[simp] theorem State.withFinalized_draws (s : State) : (s.withFinalized).draws = s.draws := rfl

/-! ### What the derived readings depend on -/

theorem State.status_congr (s t : State) (he : s.err = t.err) (hc : s.configured = t.configured)
    (hf : s.finalized = t.finalized) : s.status = t.status := by
  simp only [State.status, he, hc, hf]

theorem State.phase_congr (s t : State) (he : s.err = t.err) (hc : s.configured = t.configured)
    (hf : s.finalized = t.finalized) : s.phase = t.phase := by
  simp only [State.phase, he, hc, hf]

end Sys2Proof.Machine
end

