-- ==== Sys2Proof/Laws/Ops.lean ====
section
/-! SUPPORT. What each shared operation and each meaning can answer, said once: the provers cite these and unfold nothing. -/

namespace Sys2Proof.Machine

/-! ### Flags -/

theorem phase_eq_faulted (s : State) : s.phase = .faulted ↔ s.err ≠ 0 := by
  unfold State.phase
  split
  · simpa using ‹s.err ≠ 0›
  · next h => split <;> [simp_all; (split <;> simp_all)]

theorem phase_eq_unconfigured (s : State) : s.phase = .unconfigured ↔ s.err = 0 ∧ s.configured = false := by
  unfold State.phase
  split
  · simp_all
  · split <;> [simp_all; (split <;> simp_all)]

theorem phase_eq_opened (s : State) :
    s.phase = .opened ↔ s.err = 0 ∧ s.configured = true ∧ s.finalized = false := by
  unfold State.phase
  split
  · simp_all
  · split <;> [simp_all; (split <;> simp_all)]

theorem phase_eq_finalized (s : State) :
    s.phase = .finalized ↔ s.err = 0 ∧ s.configured = true ∧ s.finalized = true := by
  unfold State.phase
  split
  · simp_all
  · split <;> [simp_all; (split <;> simp_all)]

theorem FaultCode.code_ne_zero (c : FaultCode) : c.code ≠ 0 := by cases c <;> decide

theorem FaultCode.code_le (c : FaultCode) : c.code.toNat ≤ 4 := by cases c <;> decide

/-! ### Responses, faults, guards -/

theorem respond_next {s t : State} (h : respond s = .next t) : t = s.withResponse none := by
  cases h; rfl

theorem raise_next {c : FaultCode} {s t : State} (h : raise c s = .next t) :
    t = (s.withErr c).withResponse none := by
  cases h; rfl

theorem payBeats_data (bs : List Byte) : (payBeats bs).map PayBeat.data = bs := by
  induction bs with
  | nil => rfl
  | cons b bs ih =>
    cases bs with
    | nil => rfl
    | cons c cs => simpa [payBeats] using ih

/-- In phase FAULT a guarded command is ignored (spec/60_exceptions.md R121). -/
theorem guarded_faulted (i : Instr) (run : State → Result) {s : State} (h : s.err ≠ 0) :
    guarded i run s = .next (s.withResponse none) := by
  have : s.phase = .faulted := (phase_eq_faulted s).mpr h
  simp [guarded, this, ignore, respond]

/-- Where the table of spec/60_exceptions.md R127 lets it run, a guarded command is its meaning. -/
theorem guarded_run {i : Instr} (run : State → Result) {s : State} (h : s.err = 0) (hr : runsIn i s.phase = true) :
    guarded i run s = run s := by
  have : s.phase ≠ .faulted := fun e => (phase_eq_faulted s).mp e h
  simp [guarded, this, hr]

/-- Elsewhere it raises ERR_PROTOCOL (spec/60_exceptions.md R127). -/
theorem guarded_illegal {i : Instr} (run : State → Result) {s : State} (h : s.err = 0)
    (hr : runsIn i s.phase = false) : guarded i run s = .next ((s.withErr .protocol).withResponse none) := by
  have : s.phase ≠ .faulted := fun e => (phase_eq_faulted s).mp e h
  simp [guarded, this, hr, raise, respond]

/-- Everything a guarded command can do. -/
theorem guarded_cases (i : Instr) (run : State → Result) (s : State) :
    (s.err ≠ 0 ∧ guarded i run s = .next (s.withResponse none)) ∨
    (s.err = 0 ∧ runsIn i s.phase = false ∧ guarded i run s = .next ((s.withErr .protocol).withResponse none)) ∨
    (s.err = 0 ∧ runsIn i s.phase = true ∧ guarded i run s = run s) := by
  by_cases h : s.err = 0
  · cases hr : runsIn i s.phase with
    | false => exact .inr (.inl ⟨h, rfl, guarded_illegal run h hr⟩)
    | true => exact .inr (.inr ⟨h, rfl, guarded_run run h hr⟩)
  · exact .inl ⟨h, guarded_faulted i run h⟩

theorem runsIn_config (bs mc : Word) (s : State) (h : s.err = 0) :
    runsIn (.config bs mc) s.phase = !s.configured := by
  unfold State.phase runsIn
  cases s.configured <;> cases s.finalized <;> simp [h]

theorem runsIn_write (v : Word) (s : State) (h : s.err = 0) :
    runsIn (.write v) s.phase = (s.configured && !s.finalized) := by
  unfold State.phase runsIn
  cases s.configured <;> cases s.finalized <;> simp [h]

theorem runsIn_finish (s : State) (h : s.err = 0) : runsIn .finish s.phase = s.configured := by
  unfold State.phase runsIn
  cases s.configured <;> cases s.finalized <;> simp [h]

theorem runsIn_reset (s : State) (h : s.err = 0) : runsIn .reset s.phase = s.configured := by
  unfold State.phase runsIn
  cases s.configured <;> cases s.finalized <;> simp [h]

/-! ### FLUSH_BLOCK -/

/-- PD after step 1 of the flush in `s` (spec/42_flush_block.md R82). -/
abbrev flushMemory (s : State) : Memory := s.pd.subtractMin s.minDelta s.pendingCount.toNat

/-- The bytes of the block in `s` (spec/42_flush_block.md R91). -/
abbrev flushBytes (s : State) : List Byte :=
  blockBytes s.minDelta (flushMemory s) s.pendingCount.toNat s.miniBlockCount.toNat s.miniBlockSize.toNat

/-- The `L` of the block in `s` (spec/42_flush_block.md R90). -/
abbrev flushLength (s : State) : Nat :=
  blockLength s.minDelta (flushMemory s) s.pendingCount.toNat s.miniBlockCount.toNat s.miniBlockSize.toNat

/-- What FLUSH_BLOCK's primitives require (spec/00_scope.md R10, R11). -/
abbrev FlushReady (s : State) : Prop :=
  s.miniBlockSize.toNat ≠ 0 ∧
    touched s.pendingCount.toNat s.miniBlockSize.toNat * s.miniBlockSize.toNat ≤ s.blockSize.toNat

/-- Everything FLUSH_BLOCK can do. -/
theorem flushBlock_cases (s : State) :
    (¬ FlushReady s ∧ ∃ f, flushBlock s = .broken f) ∨
    (FlushReady s ∧ fitsOut s.outCap (s.outputBuffer.length + flushLength s) = true ∧
      flushBlock s = .flushed (s.flushedWith (flushMemory s) (flushBytes s))) ∨
    (FlushReady s ∧ fitsOut s.outCap (s.outputBuffer.length + flushLength s) = false ∧
      flushBlock s = .exhausted s.loseData) := by
  unfold flushBlock
  by_cases hm : s.miniBlockSize.toNat = 0
  · exact .inl ⟨fun h => h.1 hm, _, if_pos hm⟩
  · by_cases ht : s.blockSize.toNat < touched s.pendingCount.toNat s.miniBlockSize.toNat * s.miniBlockSize.toNat
    · exact .inl ⟨fun h => absurd ht (not_lt.mpr h.2), .pdIndex, by simp only [hm, ht, if_true, if_false]⟩
    · cases hf : fitsOut s.outCap (s.outputBuffer.length + flushLength s) with
      | true => exact .inr (.inl ⟨⟨hm, not_lt.mp ht⟩, rfl, by simp only [hm, ht, if_false]; exact if_pos hf⟩)
      | false =>
        exact .inr (.inr ⟨⟨hm, not_lt.mp ht⟩, rfl, by
          simp only [hm, ht, if_false]; exact if_neg (by simpa using hf)⟩)

/-! ### The four commands past the phase tests -/

/-- Everything CONFIG's body can do (spec/40_config.md R69). -/
theorem configure_cases (bs mc : Word) (s : State) :
    (validConfig s.extraSlots bs.toNat mc.toNat = true ∧
      configure bs mc s = .next ((s.withConfig bs mc).clearPage.withResponse none)) ∨
    (validConfig s.extraSlots bs.toNat mc.toNat = false ∧
      configure bs mc s = .next ((s.withErr .config).withResponse none)) := by
  unfold configure
  cases h : validConfig s.extraSlots bs.toNat mc.toNat
  · exact .inr ⟨rfl, by simp [raise, respond]⟩
  · exact .inl ⟨rfl, by simp [respond]⟩

/-- Everything WRITE's body can do (spec/41_write.md R73). -/
theorem acceptValue_cases (v : Word) (s : State) :
    (s.totalValueCount = 0xFFFFFFFF#32 ∧ acceptValue v s = .next ((s.withErr .resource).withResponse none)) ∨
    (s.totalValueCount = 0 ∧ acceptValue v s = .next ((s.recordFirst v).withResponse none)) ∨
    (s.totalValueCount ≠ 0 ∧ s.totalValueCount ≠ 0xFFFFFFFF#32 ∧
      ((s.blockSize.toNat ≤ s.pendingCount.toNat ∧ acceptValue v s = .fault .pdIndex) ∨
      (s.pendingCount.toNat < s.blockSize.toNat ∧ s.pendingCount + 1 ≠ s.blockSize ∧
        acceptValue v s = .next ((s.recordDelta v).withResponse none)) ∨
      (s.pendingCount.toNat < s.blockSize.toNat ∧ s.pendingCount + 1 = s.blockSize ∧
        acceptValue v s = (flushBlock (s.recordDelta v)).andThen respond))) := by
  unfold acceptValue
  by_cases hmax : s.totalValueCount = 0xFFFFFFFF#32
  · exact .inl ⟨hmax, by simp [hmax, raise, respond]⟩
  · by_cases h0 : s.totalValueCount = 0
    · exact .inr (.inl ⟨h0, by simp [h0, respond]⟩)
    · refine .inr (.inr ⟨h0, hmax, ?_⟩)
      rw [if_neg hmax, if_neg h0]
      by_cases hp : s.blockSize.toNat ≤ s.pendingCount.toNat
      · exact .inl ⟨hp, if_pos hp⟩
      · rw [if_neg hp]
        by_cases hb : s.pendingCount + 1 = s.blockSize
        · exact .inr (.inr ⟨by omega, hb, if_pos hb⟩)
        · exact .inr (.inl ⟨by omega, hb, if_neg hb⟩)

/-- Everything FINISH's body can do (spec/45_finish_reset.md R106, R107). -/
theorem finishPage_cases (s : State) :
    (s.finalized = true ∧ finishPage s = .next (s.withResponse (some (payload s)))) ∨
    (s.finalized = false ∧ s.pendingCount = 0 ∧
      finishPage s = .next (s.withFinalized.withResponse (some (payload s.withFinalized)))) ∨
    (s.finalized = false ∧ s.pendingCount ≠ 0 ∧ finishPage s = (flushBlock s).andThen closePage) := by
  unfold finishPage
  cases hf : s.finalized
  · by_cases hp : s.pendingCount = 0
    · exact .inr (.inl ⟨rfl, hp, by simp [hp, closePage, respondWith]⟩)
    · exact .inr (.inr ⟨rfl, hp, by rw [if_neg (by simp), if_pos hp]⟩)
  · exact .inl ⟨rfl, by simp [respondWith]⟩

/-! ### The step -/

/-- Everything a step can do. -/
theorem step_cases (s : State) :
    (s.inputs = [] ∧ step s = .next s) ∨
    (∃ rest, s.inputs = .takeBeat :: rest ∧ step s = .next ({ s with inputs := rest } : State).transfer) ∨
    (∃ rest, s.inputs = .hardReset :: rest ∧ step s = .next ({ s with inputs := rest } : State).hardReset) ∨
    (∃ w rest, s.inputs = .command w :: rest ∧
      ((s.drained = false ∧ step s = .next s.transfer) ∨
      (s.drained = true ∧ step s = runWord w { s with inputs := rest }))) := by
  unfold step
  split
  · exact .inl ⟨‹_›, rfl⟩
  · next rest h => exact .inr (.inl ⟨rest, h, rfl⟩)
  · next rest h => exact .inr (.inr (.inl ⟨rest, h, rfl⟩))
  · next w rest h =>
    refine .inr (.inr (.inr ⟨w, rest, h, ?_⟩))
    cases hd : s.drained
    · exact .inl ⟨rfl, by simp⟩
    · exact .inr ⟨rfl, by simp⟩

/-- What handing over a beat does. -/
theorem transfer_cases (s : State) :
    (∃ r rs, s.rspQueue = r :: rs ∧ s.transfer = { s with rspQueue := rs, rspTaken := s.rspTaken ++ [r] }) ∨
    (∃ p ps, s.rspQueue = [] ∧ s.payQueue = p :: ps ∧
      s.transfer = { s with payQueue := ps, payTaken := s.payTaken ++ [p] }) ∨
    (s.rspQueue = [] ∧ s.payQueue = [] ∧ s.transfer = s) := by
  unfold State.transfer
  split
  · next r rs h => exact .inl ⟨r, rs, h, rfl⟩
  · next p ps h1 h2 => exact .inr (.inl ⟨p, ps, h1, h2, rfl⟩)
  · next h1 h2 => exact .inr (.inr ⟨h1, h2, rfl⟩)

theorem drained_iff (s : State) : s.drained = true ↔ s.rspQueue = [] ∧ s.payQueue = [] := by
  simp [State.drained]

/-- What a word does, by what it decodes to. -/
theorem runWord_cases (w : CommandWord) (s : State) :
    (∃ i, decode w = .command i ∧ runWord w s = exec i s) ∨
    (∃ r, decode w = .reserved r ∧ runWord w s = reservedWord s) := by
  unfold runWord
  cases decode w with
  | command i => exact .inl ⟨i, rfl, rfl⟩
  | reserved r => exact .inr ⟨r, rfl, rfl⟩

end Sys2Proof.Machine
end

