-- ==== Sys2Proof/Laws/PerInstr.lean ====
section
/-! SUPPORT. The family OpcodeByte: the word of every command carries its opcode of spec/30_encoding.md R57. -/

namespace Sys2Proof.Laws

open Sys2Proof Sys2Proof.Machine

theorem opField_assembleWord (op : BitVec 8) (b : BitVec 24) (a : BitVec 32) :
    opField (assembleWord op b a) = op := by
  apply BitVec.eq_of_getLsbD_eq
  intro i hi
  simp only [opField, assembleWord, BitVec.getLsbD_extractLsb', BitVec.getLsbD_append]
  simp [hi]

theorem bField_assembleWord (op : BitVec 8) (b : BitVec 24) (a : BitVec 32) :
    bField (assembleWord op b a) = b := by
  apply BitVec.eq_of_getLsbD_eq
  intro i hi
  simp only [bField, assembleWord, BitVec.getLsbD_extractLsb', BitVec.getLsbD_append]
  simp [hi]
  intro h; omega

theorem aField_assembleWord (op : BitVec 8) (b : BitVec 24) (a : BitVec 32) :
    aField (assembleWord op b a) = a := by
  apply BitVec.eq_of_getLsbD_eq
  intro i hi
  simp only [aField, assembleWord, BitVec.getLsbD_extractLsb', BitVec.getLsbD_append]
  simp [hi]
  intro h; omega

/-- The opcode field of the command's word is its opcode. -/
def OpcodeByte.Statement (i : Instr) : Prop := opField (encode i) = opcode i

theorem OpcodeByte.config (bs mc : Word) : OpcodeByte.Statement (.config bs mc) := opField_assembleWord _ _ _

theorem OpcodeByte.write (v : Word) : OpcodeByte.Statement (.write v) := opField_assembleWord _ _ _

theorem OpcodeByte.finish : OpcodeByte.Statement .finish := opField_assembleWord _ _ _

theorem OpcodeByte.reset : OpcodeByte.Statement .reset := opField_assembleWord _ _ _

end Sys2Proof.Laws
end

