-- ==== Sys2Proof/Tests/Slice0.lean ====
section
/-! SUPPORT. Words written out from spec/30_encoding.md R55 to R57, vectors of spec/95_test_vectors.md, and for each
statement with hypotheses a witness that meets them all. -/

namespace Sys2Proof.Tests

open Sys2Proof Sys2Proof.Machine

/-! ### Helpers -/

/-- A hard-reset block of depth 128 with an unbounded `output_buffer`. -/
def blank : State := { State.reset with extraSlots := 0, outCap := none }

/-- The block after `CONFIG 128, 4`. -/
def opened : State :=
  { blank with blockSize := 128, miniBlockCount := 4, miniBlockSize := 32, configured := true
               pd := { cells := [], zeroed := 128, draw := 0 } }

/-- An open page of `total` values, the last one `prev`, with these pending deltas. -/
def page (total first prev : Word) (pending : Word) (least : Word) (cells : List (Nat × Word)) : State :=
  { opened with totalValueCount := total, firstValue := first, previousValue := prev, pendingCount := pending
                minDelta := least, pd := { cells := cells, zeroed := 128, draw := 0 } }

/-- A page with one pending delta, 5. -/
def onePending : State := page 2 10 15 1 5 [(0, 5)]

/-- A page whose next value fills the block: 127 deltas of 0 are pending. -/
def nearlyFull : State := page 128 7 7 127 0 []

/-- A page whose counter is at its end (no delta pending, spec/41_write.md R77). -/
def countAtEnd : State := page 0xFFFFFFFF#32 0 0 126 0 []

/-- A block with a fault recorded. -/
def faulted : State := { opened with err := 2 }

/-- A page after FINISH. -/
def finished : State := { page 1 9 9 0 0x7FFFFFFF#32 [] with finalized := true }

/-- What a result satisfies where it is a next state. -/
def holds (r : Result) (p : State → Bool) : Bool :=
  match r with
  | .next s => p s
  | .fault _ => false
  | .refused _ => false

theorem next_of_holds {r : Result} {p : State → Bool} (h : holds r p = true) : ∃ t, r = .next t ∧ p t = true := by
  cases r with
  | next s => exact ⟨s, rfl, h⟩
  | fault f => cases h
  | refused f => cases h

/-- Whether a flush ran to its end. -/
def flushes (r : FlushResult) : Bool :=
  match r with
  | .flushed _ => true
  | .exhausted _ => false
  | .broken _ => false

theorem flushed_of_flushes {r : FlushResult} (h : flushes r = true) : ∃ t, r = .flushed t := by
  cases r with
  | flushed s => exact ⟨s, rfl⟩
  | exhausted s => cases h
  | broken f => cases h

/-! ### WellFormed and decoding -/

theorem test_config_mc_24_bits_refused : (Instr.config 128 0x01000000#32).wellFormed = false := by decide
theorem test_config_mc_largest_accepted : (Instr.config 128 0x00FFFFFF#32).wellFormed = true := by decide

/-- `CONFIG 0x80, 4`: op 0000_0001, b 0x000004, a 0x00000080. -/
theorem test_decode_config :
    decode 0b0000000100000000000000000000010000000000000000000000000010000000#64 = .command (.config 128 4) := by decide
/-- `WRITE -2^31 + 1`: op 0000_0010, b 0, a 0x80000001. -/
theorem test_decode_write :
    decode 0b0000001000000000000000000000000010000000000000000000000000000001#64 =
      .command (.write 0x80000001#32) := by decide
/-- `FINISH`: op 0000_0011, b 0, a 0. -/
theorem test_decode_finish :
    decode 0b0000001100000000000000000000000000000000000000000000000000000000#64 = .command .finish := by decide
/-- `RESET`: op 0000_0100, b 0, a 0. -/
theorem test_decode_reset :
    decode 0b0000010000000000000000000000000000000000000000000000000000000000#64 = .command .reset := by decide
/-- Reserved words (spec/95_test_vectors.md 2.7, spec/30_encoding.md R58). -/
theorem test_decode_reserved :
    decode 0#64 = .reserved .opcode ∧ decode 0x0500000000000000#64 = .reserved .opcode ∧
    decode 0xFF00000000000000#64 = .reserved .opcode ∧ decode 0x0280000000000000#64 = .reserved .fieldB ∧
    decode 0x0400000100000000#64 = .reserved .fieldB ∧ decode 0x0480000080000000#64 = .reserved .fieldB ∧
    decode 0x0400000080000000#64 = .reserved .fieldA := by decide
theorem test_decodeTableWord :
    decodeTableWord 64 0x0100000400000080 = some (.config 128 4) ∧ decodeTableWord 64 0 = none := by decide
theorem test_fetch_word_from_reset :
    holds (step (State.reset.withFetchWord 64 0x0100000400000080)) (fun t => t.configured && t.miniBlockSize == 32) =
      true := by decide

/-! ### One command (spec/95_test_vectors.md 2.1 to 2.7) -/

theorem test_config_opens : holds (exec (.config 128 4) blank) (fun t => t.miniBlockSize == 32 && t.status == 0x08#8) = true := by
  decide
theorem test_config_refuses_narrow_mini_blocks :
    holds (exec (.config 128 32) blank) (fun t => t.status == 0x01#8 && t.blockSize == 0) = true := by decide
/-- 2.2: `WRITE 70` after 100, 90, 95. -/
theorem test_write_tracks_minimum :
    holds (exec (.write 70) (page 3 100 95 2 (-10) [(0, -10), (1, 5)])) (fun t =>
      t.totalValueCount == 4 && t.previousValue == 70 && t.pendingCount == 3 && t.minDelta == 0xFFFFFFE7#32 &&
      t.pd.read 2 == 0xFFFFFFE7#32 && t.pd.read 1 == 5) = true := by decide
/-- Part 1, S3: the delta from -2^31 to 2^31 - 1 wraps to -1. -/
theorem test_write_wraps :
    holds (exec (.write 0x7FFFFFFF#32) (page 1 0x80000000#32 0x80000000#32 0 0x7FFFFFFF#32 [])) (fun t =>
      t.pd.read 0 == 0xFFFFFFFF#32 && t.minDelta == 0xFFFFFFFF#32 && t.status == 0x08#8) = true := by decide
/-- 2.3, F-b: the payload of 10, 11, 13, 16. -/
theorem test_finish_payload :
    holds (exec .finish (page 4 10 16 3 1 [(0, 1), (1, 2), (2, 3)])) (fun t =>
      t.payQueue.map PayBeat.data == [0x80, 0x01, 0x04, 0x04, 0x0A, 0x02, 0x02, 0, 0, 0, 0x24, 0, 0, 0, 0, 0, 0, 0] &&
      t.status == 0x18#8) = true := by decide
/-- Part 1, S3: the payload of -2^31, 2^31 - 1. -/
theorem test_finish_first_value :
    holds (exec .finish (page 2 0x80000000#32 0x7FFFFFFF#32 1 (-1) [(0, -1)])) (fun t =>
      t.payQueue.map PayBeat.data ==
        [0x80, 0x01, 0x04, 0x02, 0x80, 0x80, 0x80, 0x80, 0x08, 0x01, 0, 0, 0, 0]) = true := by decide
theorem test_reset_clears :
    holds (exec .reset onePending) (fun t =>
      t.totalValueCount == 0 && t.pendingCount == 0 && t.minDelta == 0x7FFFFFFF#32 && t.pd.read 0 == 0 &&
      t.blockSize == 128 && t.status == 0x08#8) = true := by decide
theorem test_reset_reopens_finished : holds (exec .reset finished) (fun t => t.phase == .opened) = true := by decide

/-! ### Internal operations (spec/43_bitpack.md, spec/44_varint.md) -/

/-- 2.3, F-a: group 0 of width 5. -/
theorem test_pack8_width_5 : pack8 5 15 30 0 25 0 0 0 0 = [0xCF, 0x83, 0x0C, 0x00, 0x00] := by decide
theorem test_uvarint32 : uvarint32 128 = [0x80, 0x01] ∧ uvarint32 127 = [0x7F] ∧
    uvarint32 0xFFFFFFFF#32 = [0xFF, 0xFF, 0xFF, 0xFF, 0x0F] := by decide
theorem test_zigzag32 : zigzag32 (-25) = 49 ∧ zigzag32 0x80000000#32 = 0xFFFFFFFF#32 ∧ zigzag32 1 = 2 := by decide
theorem test_assemble_text :
    assembleText ['C', 'O', 'N', 'F', 'I', 'G', ' ', '0', 'x', '8', '0', ',', ' ', '4', ' ', ';', 'x'] =
      some [0x0100000400000080#64] ∧
    assembleText ['W', 'R', 'I', 'T', 'E', ' ', '-', '1'] = some [0x02000000FFFFFFFF#64] := by decide

/-! ### The invariants on small states -/

theorem blank_inv : StateInv blank :=
  ⟨⟨List.Pairwise.nil, by decide⟩, by decide, rfl, fun h => absurd h (by decide), fun _ => ⟨rfl, rfl, rfl, rfl, rfl, rfl, rfl⟩,
    fun _ h => absurd h (by decide)⟩

theorem opened_config : ConfigInv opened := ⟨by decide, by decide, by decide⟩

theorem opened_inv : StateInv opened :=
  ⟨⟨List.Pairwise.nil, by decide⟩, by decide, rfl, fun _ => opened_config, fun h => absurd h (by decide),
    fun _ _ => ⟨by decide, by decide, by decide, by decide, by decide, by decide, by decide⟩⟩

theorem onePending_inv : StateInv onePending :=
  ⟨⟨by decide, by decide⟩, by decide, rfl, fun _ => ⟨by decide, by decide, by decide⟩, fun h => absurd h (by decide),
    fun _ _ => ⟨by decide, by decide, by decide, fun _ => ⟨0, by decide, by decide⟩, by decide, by decide, by decide⟩⟩

theorem onePending_whole : WholeBlocksInv onePending := fun _ _ => ⟨[], by decide, rfl⟩

/-! ### Witnesses: each statement's hypotheses, clause by clause -/

theorem witness_DecodeFollowsOpcodeMap :
    0x01FFFFFFFFFFFFFF#64 &&& 0xFF00000000000000#64 = 0x0100000000000000#64 ∧
    0x02000000FFFFFFFF#64 &&& 0xFFFFFFFF00000000#64 = 0x0200000000000000#64 ∧
    0x0300000000000000#64 &&& 0xFFFFFFFFFFFFFFFF#64 = 0x0300000000000000#64 ∧
    0x0400000000000000#64 &&& 0xFFFFFFFFFFFFFFFF#64 = 0x0400000000000000#64 ∧
    0x0200000100000000#64 &&& 0xFF00000000000000#64 ≠ 0x0100000000000000#64 ∧
    0x0200000100000000#64 &&& 0xFFFFFFFF00000000#64 ≠ 0x0200000000000000#64 ∧
    0x0200000100000000#64 &&& 0xFFFFFFFFFFFFFFFF#64 ≠ 0x0300000000000000#64 ∧
    0x0200000100000000#64 &&& 0xFFFFFFFFFFFFFFFF#64 ≠ 0x0400000000000000#64 := by decide

theorem witness_DecodeInvertsEncode :
    (Instr.config 0xFFFFFFFF#32 0x00FFFFFF#32).wellFormed = true ∧ (Instr.write 0xFFFFFFFF#32).wellFormed = true ∧
    Instr.finish.wellFormed = true ∧ Instr.reset.wellFormed = true := by decide

theorem witness_EncodeInvertsDecode :
    decode 0x01FFFFFF00000000#64 = .command (.config 0 0x00FFFFFF#32) ∧
    decode 0x02000000FFFFFFFF#64 = .command (.write 0xFFFFFFFF#32) := by decide

theorem witness_PseudoInstructionsExpand : ([-2147483648, 4294967295] : List Int) ≠ [] := by decide

/-- Also of ReservedWordIsIllegal's premises on the state. -/
theorem witness_StepRunsDecodedInstr :
    let s := opened.withFetchWord 64 0x0200000000000007
    s.inputs = .command 0x0200000000000007#64 :: [] ∧ s.rspQueue = [] ∧ s.payQueue = [] ∧ s.err = 0 ∧
    decode 0x0200000000000007#64 = .command (.write 7) := by decide

theorem witness_StepHoldsWordUntilTaken :
    let r : RspBeat := { status := 0x18#8, hasPayload := true }
    let p : PayBeat := { data := 1, last := true }
    let s := { finished with inputs := [.command 0x0400000000000000#64], rspQueue := [r], payQueue := [p] }
    let t := { s with rspQueue := [] }
    s.inputs = .command 0x0400000000000000#64 :: [] ∧ s.rspQueue = r :: [] ∧
    t.inputs = .command 0x0400000000000000#64 :: [] ∧ t.rspQueue = [] ∧ t.payQueue = p :: [] := by decide

/-- Also of ParametersNeverChange. -/
theorem witness_TakenBeatsNeverChange :
    ∃ t, step (opened.withFetchWord 64 0x0300000000000000) = .next t ∧ (t.payQueue != []) = true :=
  next_of_holds (by decide)

theorem witness_ReservedWordIsIllegal :
    (0x00FFFFFFFFFFFFFF#64).extractLsb' 56 8 = 0 ∧ 5 ≤ ((0x0500000000000000#64).extractLsb' 56 8).toNat ∧
    5 ≤ ((0xFF00000000000000#64).extractLsb' 56 8).toNat ∧
    ((0x0200000100000000#64).extractLsb' 56 8 = 2 ∧ (0x0200000100000000#64).extractLsb' 32 24 ≠ 0) ∧
    ((0x0380000000000000#64).extractLsb' 56 8 = 3 ∧ (0x0380000000000000#64).extractLsb' 32 24 ≠ 0) ∧
    ((0x0400000080000000#64).extractLsb' 56 8 = 4 ∧ (0x0400000080000000#64).extractLsb' 0 32 ≠ 0) := by decide

theorem witness_StatusByteInResponse :
    (∃ t, runWord 0x0200000000000007#64 opened = .next t ∧ (t.err == 0) = true) ∧
    (∃ t, runWord 0x0000000000000000#64 opened = .next t ∧ (t.err == 4) = true) ∧ opened.err.toNat ≤ 4 :=
  ⟨next_of_holds (by decide), next_of_holds (by decide), by decide⟩

/-- A FINISH that answers with its payload, and one that does not. -/
theorem witness_ResponseFormat :
    decode 0x0300000000000000#64 = .command .finish ∧
    (∃ t, runWord 0x0300000000000000#64 onePending = .next t ∧ (t.err == 0) = true) ∧
    (∃ t, runWord 0x0300000000000000#64 blank = .next t ∧ (t.err == 3) = true) :=
  ⟨by decide, next_of_holds (by decide), next_of_holds (by decide)⟩

theorem witness_FaultPhaseIgnoresEveryWord : faulted.err ≠ 0 := by decide

theorem witness_FaultPriority :
    faulted.err ≠ 0 ∧ blank.err = 0 ∧ opened.err = 0 ∧ countAtEnd.err = 0 ∧ finished.err = 0 ∧
    decode 0x0500000000000000#64 = .reserved .opcode ∧
    decode 0x0100000000000080#64 = .command (.config 128 0) ∧
    opened.configured = true ∧ blank.configured = false ∧ ¬ ValidConfig blank.maxBlockSize 128 0 ∧
    decode 0x0200000000000007#64 = .command (.write 7) ∧ finished.finalized = true ∧
    countAtEnd.configured = true ∧ countAtEnd.finalized = false ∧ countAtEnd.totalValueCount = 0xFFFFFFFF#32 ∧
    decode 0x0300000000000000#64 = .command .finish ∧ decode 0x0400000000000000#64 = .command .reset := by decide

theorem witness_FaultPriority_answers :
    (∃ t, runWord 0x0500000000000000#64 opened = .next t ∧ (t.err == 4) = true) ∧
    (∃ t, runWord 0x0300000000000000#64 blank = .next t ∧ (t.err == 3) = true) ∧
    (∃ t, runWord 0x0100000000000080#64 blank = .next t ∧ (t.err == 1) = true) ∧
    (∃ t, runWord 0x0300000000000000#64 { onePending with outCap := some 3 } = .next t ∧ (t.err == 2) = true) :=
  ⟨next_of_holds (by decide), next_of_holds (by decide), next_of_holds (by decide), next_of_holds (by decide)⟩

theorem witness_FaultsArePrecise :
    (∃ t, runWord 0x0100000000000080#64 blank = .next t ∧ (t.err == 1) = true) ∧
    (∃ t, runWord 0x0200000000000007#64 countAtEnd = .next t ∧ (t.err == 2) = true) ∧ blank.err = 0 ∧ countAtEnd.err = 0 :=
  ⟨next_of_holds (by decide), next_of_holds (by decide), by decide, by decide⟩

theorem witness_OnlyHardResetLeavesFault :
    (∃ t, step { faulted with inputs := [.hardReset] } = .next t ∧ (t.err == 0) = true) ∧
    (∃ t, step { faulted with inputs := [.command 0x0400000000000000#64] } = .next t ∧ (t.err == 2) = true) ∧
    faulted.err ≠ 0 :=
  ⟨next_of_holds (by decide), next_of_holds (by decide), by decide⟩

theorem witness_HardResetValues :
    ({ onePending with inputs := [.hardReset] } : State).inputs = .hardReset :: [] ∧
    (∃ t, step { faulted with inputs := [.takeBeat] } = .next t ∧ (t.configured) = true) ∧
    ({ faulted with inputs := [.takeBeat] } : State).inputs.head? ≠ some .hardReset ∧
    faulted.err ≠ 0 ∧ faulted.configured = true :=
  ⟨rfl, next_of_holds (by decide), by decide, by decide, by decide⟩

theorem witness_OnlyConfigWritesConfiguration :
    (∃ t, step (blank.withFetchWord 64 0x0100000400000080) = .next t ∧ (t.blockSize == 128) = true) ∧
    (∃ t, step (onePending.withFetchWord 64 0x0200000000000007) = .next t ∧ (t.blockSize == 128) = true) :=
  ⟨next_of_holds (by decide), next_of_holds (by decide)⟩

theorem witness_ConfigRule :
    faulted.err ≠ 0 ∧ opened.err = 0 ∧ opened.configured = true ∧ blank.err = 0 ∧ blank.configured = false ∧
    ¬ ValidConfig blank.maxBlockSize 256 2 ∧ ValidConfig blank.maxBlockSize 128 16 := by decide

theorem witness_ConfigQuotientExact : ConfigInv { opened with miniBlockCount := 16, miniBlockSize := 8 } :=
  ⟨by decide, by decide, by decide⟩

theorem witness_ConfigVerdicts :
    let s := { blank with extraSlots := 256 }
    s.err = 0 ∧ s.configured = false ∧ 384 ≤ s.maxBlockSize ∧ (512#32).toNat = s.maxBlockSize + 128 := by decide

theorem witness_FirstWriteRule :
    opened.err = 0 ∧ opened.configured = true ∧ opened.finalized = false ∧ opened.totalValueCount = 0 := by decide

/-- The clause of the block that stays open; `nearlyFull` (see `witness_FillingWriteFlushes`) meets the other. -/
theorem witness_LaterWriteRule :
    let s := page 127 7 7 126 0 []
    s.err = 0 ∧ s.configured = true ∧ s.finalized = false ∧ s.totalValueCount ≠ 0 ∧
    s.totalValueCount ≠ 0xFFFFFFFF#32 ∧ s.pendingCount.toNat < s.blockSize.toNat ∧
    s.pendingCount.toNat + 1 < s.blockSize.toNat ∧ nearlyFull.pendingCount.toNat < nearlyFull.blockSize.toNat ∧
    (page 1 7 7 0 0x7FFFFFFF#32 []).minDelta = 0x7FFFFFFF#32 := by decide

theorem witness_CountAdvancesOrFaults :
    countAtEnd.err = 0 ∧ countAtEnd.configured = true ∧ countAtEnd.finalized = false ∧
    countAtEnd.totalValueCount = 0xFFFFFFFF#32 ∧
    ∃ t, exec (.write 7) { countAtEnd with totalValueCount := 0xFFFFFFFE#32 } = .next t ∧ (t.err == 0) = true :=
  ⟨rfl, rfl, rfl, rfl, next_of_holds (by decide)⟩

theorem witness_FillingWriteFlushes :
    nearlyFull.err = 0 ∧ nearlyFull.configured = true ∧ nearlyFull.finalized = false ∧ ConfigInv nearlyFull ∧
    nearlyFull.totalValueCount ≠ 0 ∧ nearlyFull.totalValueCount ≠ 0xFFFFFFFF#32 ∧
    nearlyFull.pendingCount.toNat + 1 = nearlyFull.blockSize.toNat ∧ ∀ len, fitsOut nearlyFull.outCap len = true :=
  ⟨rfl, rfl, rfl, ⟨by decide, by decide, by decide⟩, by decide, by decide, by decide, fun _ => rfl⟩

theorem blockLength_pos_of_four (least : Word) (m : Memory) (n mbs used : Nat) :
    fitsOut (some 3) (used + blockLength least m n 4 mbs) = false := by
  unfold fitsOut blockLength
  exact decide_eq_false (by omega)

theorem witness_CapacityFaultFlags_unbounded :
    (∃ t, exec (.write 7) countAtEnd = .next t ∧ (t.err == 2) = true) ∧ countAtEnd.err = 0 ∧ countAtEnd.outCap = none :=
  ⟨next_of_holds (by decide), rfl, rfl⟩

theorem witness_CapacityFaultFlags_write :
    let s := { nearlyFull with outCap := some 3 }
    s.err = 0 ∧ s.configured = true ∧ s.finalized = false ∧ ConfigInv s ∧ s.totalValueCount ≠ 0 ∧
    s.totalValueCount ≠ 0xFFFFFFFF#32 ∧ s.pendingCount.toNat + 1 = s.blockSize.toNat ∧
    ∀ (m : Memory) (least : Word), fitsOut s.outCap (s.outputBuffer.length +
      blockLength least m s.blockSize.toNat s.miniBlockCount.toNat s.miniBlockSize.toNat) = false :=
  ⟨rfl, rfl, rfl, ⟨by decide, by decide, by decide⟩, by decide, by decide, by decide,
    fun m least => blockLength_pos_of_four least m _ _ _⟩

theorem witness_CapacityFaultFlags_finish :
    let s := { onePending with outCap := some 3 }
    s.err = 0 ∧ s.configured = true ∧ s.finalized = false ∧ ConfigInv s ∧ s.pendingCount ≠ 0 ∧
    s.pendingCount.toNat ≤ s.blockSize.toNat ∧
    ∀ m : Memory, fitsOut s.outCap (s.outputBuffer.length +
      blockLength s.minDelta m s.pendingCount.toNat s.miniBlockCount.toNat s.miniBlockSize.toNat) = false :=
  ⟨rfl, rfl, rfl, ⟨by decide, by decide, by decide⟩, by decide, by decide,
    fun m => blockLength_pos_of_four _ m _ _ _⟩

theorem witness_EveryValueIsAccepted :
    StateInv onePending ∧ onePending.phase = .opened ∧ onePending.outCap = none ∧
    onePending.totalValueCount ≠ 0xFFFFFFFF#32 := ⟨onePending_inv, by decide, rfl, by decide⟩

theorem witness_MinSubtraction :
    (∃ t, flushBlock onePending = .flushed t) ∧ (∀ j < onePending.pendingCount.toNat,
      onePending.minDelta.toInt ≤ (onePending.pd.read j).toInt) :=
  ⟨flushed_of_flushes (by decide), by decide⟩

theorem witness_BitlenIsMinimal :
    (0x80000000#32 : Word) ≠ 0 ∧ 2 ^ (32 - 1) ≤ (0x80000000#32 : Word).toNat ∧ (0x80000000#32 : Word).toNat < 2 ^ 32 := by
  decide

/-- Also of FlushedBlockLayout, FlushedBlockReadsBack. Mini-block 0 holds a valid slot, mini-block 1 none. -/
theorem witness_FlushedBlockProperties :
    ConfigInv onePending ∧ 0 < onePending.pendingCount.toNat ∧
    onePending.pendingCount.toNat ≤ onePending.blockSize.toNat ∧
    (∀ j < onePending.pendingCount.toNat, onePending.minDelta.toInt ≤ (onePending.pd.read j).toInt) ∧
    (∃ j < onePending.pendingCount.toNat, onePending.pd.read j = onePending.minDelta) ∧
    (∃ t, flushBlock onePending = .flushed t) :=
  ⟨⟨by decide, by decide, by decide⟩, by decide, by decide, by decide, ⟨0, by decide, by decide⟩,
    flushed_of_flushes (by decide)⟩

theorem witness_BlockLengthBounds : ConfigInv opened ∧ 0 < 128 ∧ 128 ≤ opened.blockSize.toNat :=
  ⟨opened_config, by decide, by decide⟩

theorem witness_Pack8BitLayout : 32 ≤ 32 ∧ 7 < 8 ∧ 31 < 32 ∧ (0 : Nat) ≤ 32 := by decide

theorem witness_FinishRule :
    faulted.err ≠ 0 ∧ blank.err = 0 ∧ blank.configured = false ∧ finished.err = 0 ∧ finished.configured = true ∧
    finished.finalized = true ∧ opened.err = 0 ∧ opened.configured = true ∧ opened.pendingCount = 0 ∧
    onePending.err = 0 ∧ onePending.configured = true ∧ onePending.finalized = false ∧ onePending.pendingCount ≠ 0 ∧
    onePending.pendingCount.toNat ≤ onePending.blockSize.toNat ∧ fitsOut onePending.outCap 1000 = true := by decide

theorem witness_FinishRule_config : ConfigInv onePending := ⟨by decide, by decide, by decide⟩

/-- Also of FinishFrame. -/
theorem witness_FinishIsIdempotent :
    onePending.err = 0 ∧ ∃ t, exec .finish onePending = .next t ∧ (t.err == 0) = true :=
  ⟨rfl, next_of_holds (by decide)⟩

theorem witness_ResetRule :
    faulted.err ≠ 0 ∧ blank.err = 0 ∧ blank.configured = false ∧ finished.err = 0 ∧ finished.configured = true := by decide

theorem witness_ResetEqualsFreshConfig : StateInv onePending ∧ onePending.err = 0 ∧ onePending.configured = true :=
  ⟨onePending_inv, rfl, rfl⟩

/-- Two different states that look the same: a slot beyond the block differs. -/
theorem witness_UnspecifiedStateIsUnobservable :
    SameView onePending { onePending with pd := { cells := [(0, 5), (128, 9)], zeroed := 128, draw := 0 } } ∧
    (∃ t, runWord 0x0200000000000007#64 onePending = .next t ∧ (t.err == 0) = true) :=
  ⟨⟨rfl, rfl, rfl, rfl, rfl, fun _ _ => ⟨rfl, rfl, rfl, rfl, rfl, rfl, rfl, rfl, rfl, by decide⟩⟩, next_of_holds (by decide)⟩

/-- Two unconfigured states that differ in a configuration register. -/
theorem witness_UnspecifiedStateIsUnobservable_unconfigured :
    SameView blank { blank with blockSize := 7 } :=
  ⟨rfl, rfl, rfl, rfl, rfl, fun _ h => absurd h (by decide)⟩

/-- Also of StepNeverStops and StepKeepsWholeBlocks. -/
theorem witness_StepKeepsInv :
    StateInv onePending ∧ WholeBlocksInv onePending ∧ ∃ t, step onePending = .next t :=
  ⟨onePending_inv, onePending_whole, _, rfl⟩

/-- The write clause at the smallest `N` (its bound is met exactly by 1 block of 521 bytes), the finish clause too. -/
theorem witness_PlannedPageFits :
    let s := { onePending with outCap := some 521 }
    s.phase = .opened ∧ s.totalValueCount ≠ 0 ∧ s.totalValueCount.toNat + 1 ≤ 3 ∧ 3 < 2 ^ 32 ∧
    fitsOut s.outCap (ceilDiv (3 - 1) s.blockSize.toNat * (5 + s.miniBlockCount.toNat + 4 * s.blockSize.toNat)) = true ∧
    fitsOut s.outCap (ceilDiv (s.totalValueCount.toNat - 1) s.blockSize.toNat *
      (5 + s.miniBlockCount.toNat + 4 * s.blockSize.toNat)) = true := by decide

theorem witness_PlannedPageFits_inv :
    StateInv { onePending with outCap := some 521 } ∧ WholeBlocksInv { onePending with outCap := some 521 } :=
  ⟨⟨⟨by decide, by decide⟩, by decide, by decide, fun _ => ⟨by decide, by decide, by decide⟩, fun h => absurd h (by decide),
    fun _ _ => ⟨by decide, by decide, by decide, fun _ => ⟨0, by decide, by decide⟩, by decide, by decide, by decide⟩⟩,
    fun _ _ => ⟨[], by decide, rfl⟩⟩

theorem witness_LifecycleGrammar :
    StateInv blank ∧ blank.phase = .unconfigured ∧ ValidConfig blank.maxBlockSize (128#32).toNat (4#32).toNat ∧
    (4#32 : Word).toNat < 2 ^ 24 ∧ blank.outCap = none ∧
    (∃ t, execAll [.config 128 4, .write 7, .finish, .finish, .reset, .write 9] blank = .next t ∧ (t.err == 0) = true) :=
  ⟨blank_inv, by decide, by decide, by decide, rfl, next_of_holds (by decide)⟩

theorem witness_LifecycleGrammar_pages : Pages [.write 7, .finish, .finish, .reset, .write 9] :=
  .more [.write 7, .finish, .finish] [.write 9] (.write 7 _ (.finishes 2)) (.last _ (.write 9 _ (.finishes 0)))

theorem witness_PageReadsBack :
    StateInv opened ∧ opened.phase = .opened ∧ opened.totalValueCount = 0 ∧ opened.outCap = none ∧
    ([7, 7, 9] : List Word).length < 2 ^ 32 := ⟨opened_inv, by decide, rfl, rfl, by decide⟩

/-- Also of WriteFrame: the first value, a later value, a value that fills the block, FINISH. -/
theorem witness_OutputOnlyGrows :
    (∃ t, exec (.write 7) opened = .next t ∧ (t.err == opened.err) = true) ∧
    (∃ t, exec (.write 7) onePending = .next t ∧ (t.err == onePending.err) = true) ∧
    (∃ t, exec (.write 7) { nearlyFull with blockSize := 128 } = .next t ∧ (t.err == nearlyFull.err) = true) ∧
    (∃ t, exec .finish onePending = .next t ∧ (t.err == onePending.err) = true) :=
  ⟨next_of_holds (by decide), next_of_holds (by decide), next_of_holds (by decide), next_of_holds (by decide)⟩

theorem witness_ConfigAndResetFrame :
    (∃ t, exec (.config 128 4) blank = .next t ∧ (t.err == 0) = true) ∧
    (∃ t, exec .reset onePending = .next t ∧ (t.err == 0) = true) :=
  ⟨next_of_holds (by decide), next_of_holds (by decide)⟩

end Sys2Proof.Tests
end

section
/-! SUPPORT. The response of an accepted word (spec/10_state.md R24): every command ends by adding one response to the
state it has reached, so the status byte shows that state's flags. -/

namespace Sys2Proof.Machine

/-! ### The fields of the status byte -/

/-- Bits 2:0 `err`, bit 3 `configured`, bit 4 `finalized`, nothing above. -/
theorem State.status_getLsbD (s : State) (i : Nat) :
    s.status.getLsbD i =
      if i < 3 then s.err.getLsbD i else if i = 3 then s.configured else if i = 4 then s.finalized else false := by
  simp only [State.status, BitVec.getLsbD_append, BitVec.getLsbD_ofBool, BitVec.getLsbD_zero]
  obtain herr | rfl | rfl | htop : i < 3 ∨ i = 3 ∨ i = 4 ∨ 4 < i := by omega
  · grind
  · simp
  · simp
  · grind

theorem State.status_err (s : State) : s.status.extractLsb' 0 3 = s.err := by
  apply BitVec.eq_of_getLsbD_eq
  intro i hi
  simp only [BitVec.getLsbD_extractLsb', State.status_getLsbD, Nat.zero_add, hi, decide_true, Bool.true_and, if_true]

theorem State.status_configured (s : State) : s.status.getLsbD 3 = s.configured := s.status_getLsbD 3

theorem State.status_finalized (s : State) : s.status.getLsbD 4 = s.finalized := s.status_getLsbD 4

theorem State.status_topBits (s : State) : s.status.extractLsb' 5 3 = 0 := by
  apply BitVec.eq_of_getLsbD_eq
  intro i hi
  have hlow : ¬ 5 + i < 3 := by omega
  have hconf : 5 + i ≠ 3 := by omega
  have hfin : 5 + i ≠ 4 := by omega
  simp only [BitVec.getLsbD_extractLsb', State.status_getLsbD, hlow, hconf, hfin, if_false, Bool.and_false]
  exact BitVec.getLsbD_zero.symm

/-! ### Every command ends in one response -/

/-- Where `r` answers a next state, that is some state `u` with one response added; up to `u` the command has offered no
response, and `err` in `u` is the `err` of `s` or the code of a fault. -/
def EndsInResponse (s : State) (r : Result) : Prop :=
  ∀ t, r = .next t → ∃ (u : State) (p : Option (List Byte)), t = u.withResponse p ∧ u.rspQueue = s.rspQueue ∧
    (u.err = s.err ∨ ∃ c : FaultCode, u.err = c.code)

theorem endsInResponse_withResponse {s u : State} (p : Option (List Byte)) (hq : u.rspQueue = s.rspQueue)
    (he : u.err = s.err) : EndsInResponse s (.next (u.withResponse p)) := by
  rintro _ ⟨⟩
  exact ⟨u, p, rfl, hq, .inl he⟩

theorem endsInResponse_raise {s u : State} (c : FaultCode) (hq : u.rspQueue = s.rspQueue) :
    EndsInResponse s (raise c u) := by
  rintro _ ⟨⟩
  exact ⟨u.withErr c, none, rfl, hq, .inr ⟨c, rfl⟩⟩

theorem endsInResponse_fault (s : State) (f : Fault) : EndsInResponse s (.fault f) := nofun

/-- The rest of a command after FLUSH_BLOCK: only where the block fits does it run. -/
theorem endsInResponse_flushBlock {s u : State} {rest : State → Result} (hq : u.rspQueue = s.rspQueue)
    (hrest : ∀ m bytes, EndsInResponse s (rest (u.flushedWith m bytes))) :
    EndsInResponse s ((flushBlock u).andThen rest) := by
  obtain ⟨-, f, hr⟩ | ⟨-, -, hr⟩ | ⟨-, -, hr⟩ := flushBlock_cases u <;> rw [hr]
  · exact endsInResponse_fault s f
  · exact hrest _ _
  · exact endsInResponse_raise .resource hq

theorem endsInResponse_configure (bs mc : Word) (s : State) : EndsInResponse s (configure bs mc s) := by
  obtain ⟨-, hr⟩ | ⟨-, hr⟩ := configure_cases bs mc s <;> rw [hr]
  · exact endsInResponse_withResponse none rfl rfl
  · exact endsInResponse_raise .config rfl

theorem endsInResponse_acceptValue (v : Word) (s : State) : EndsInResponse s (acceptValue v s) := by
  obtain ⟨-, hr⟩ | ⟨-, hr⟩ | ⟨-, -, ⟨-, hr⟩ | ⟨-, -, hr⟩ | ⟨-, -, hr⟩⟩ := acceptValue_cases v s <;> rw [hr]
  · exact endsInResponse_raise .resource rfl
  · exact endsInResponse_withResponse none rfl rfl
  · exact endsInResponse_fault s .pdIndex
  · exact endsInResponse_withResponse none rfl rfl
  · exact endsInResponse_flushBlock rfl fun _ _ => endsInResponse_withResponse none rfl rfl

theorem endsInResponse_finishPage (s : State) : EndsInResponse s (finishPage s) := by
  obtain ⟨-, hr⟩ | ⟨-, -, hr⟩ | ⟨-, -, hr⟩ := finishPage_cases s <;> rw [hr]
  · exact endsInResponse_withResponse _ rfl rfl
  · exact endsInResponse_withResponse _ rfl rfl
  · exact endsInResponse_flushBlock rfl fun _ _ => endsInResponse_withResponse _ rfl rfl

/-- The order of spec/60_exceptions.md R122 ends in a response before the command's own meaning too. -/
theorem endsInResponse_guarded (i : Instr) {run : State → Result} {s : State} (hrun : EndsInResponse s (run s)) :
    EndsInResponse s (guarded i run s) := by
  obtain ⟨-, hr⟩ | ⟨-, -, hr⟩ | ⟨-, -, hr⟩ := guarded_cases i run s <;> rw [hr]
  · exact endsInResponse_withResponse none rfl rfl
  · exact endsInResponse_raise .protocol rfl
  · exact hrun

theorem endsInResponse_exec (i : Instr) (s : State) : EndsInResponse s (exec i s) := by
  cases i with
  | config bs mc => exact endsInResponse_guarded _ (endsInResponse_configure bs mc s)
  | write v => exact endsInResponse_guarded _ (endsInResponse_acceptValue v s)
  | finish => exact endsInResponse_guarded _ (endsInResponse_finishPage s)
  | reset =>
    have hrun : EndsInResponse s (respond s.clearPage) := endsInResponse_withResponse none rfl rfl
    exact endsInResponse_guarded .reset (run := fun u => respond u.clearPage) hrun

theorem endsInResponse_reservedWord (s : State) : EndsInResponse s (reservedWord s) := by
  unfold reservedWord
  split
  · exact endsInResponse_withResponse none rfl rfl
  · exact endsInResponse_raise .illegal rfl

theorem endsInResponse_runWord (w : CommandWord) (s : State) : EndsInResponse s (runWord w s) := by
  obtain ⟨i, -, hr⟩ | ⟨r, -, hr⟩ := runWord_cases w s <;> rw [hr]
  · exact endsInResponse_exec i s
  · exact endsInResponse_reservedWord s

/-- Settles O10: the word ends in one response of the state it has reached, and the response changes no flag. -/
theorem statusByteInResponse : Obligations.StatusByteInResponse := by
  intro s t w hw
  obtain ⟨u, p, rfl, hq, herr⟩ := endsInResponse_runWord w s t hw
  refine ⟨⟨{ status := u.status, hasPayload := p.isSome }, by rw [State.withResponse_rspQueue, hq],
    u.status_err, u.status_configured, u.status_finalized, u.status_topBits⟩, fun hs => ?_⟩
  rw [State.withResponse_err]
  obtain he | ⟨c, he⟩ := herr <;> rw [he]
  · exact hs
  · exact c.code_le

end Sys2Proof.Machine
end

section
/-! SUPPORT. The encoding (spec/30_encoding.md R55 to R58): a word is its three fields, so meeting a mask and match is a
condition on the fields; what the decoder answers for each row of R57 and for the reserved words of R58. -/

namespace Sys2Proof.Machine

open Sys2Proof.Laws

/-! ### A word is its fields -/

theorem assembleWord_fields (w : CommandWord) : assembleWord (opField w) (bField w) (aField w) = w := by
  unfold assembleWord opField bField aField
  rw [BitVec.extractLsb'_append_extractLsb'_eq_extractLsb' (by decide : 32 = 0 + 32),
    BitVec.extractLsb'_append_extractLsb'_eq_extractLsb' (by decide : 56 = 0 + (24 + 32))]
  exact BitVec.extractLsb'_eq_self

theorem eq_assembleWord_iff (w : CommandWord) (op : BitVec 8) (b : BitVec 24) (a : BitVec 32) :
    w = assembleWord op b a ↔ opField w = op ∧ bField w = b ∧ aField w = a := by
  constructor
  · rintro rfl
    exact ⟨opField_assembleWord _ _ _, bField_assembleWord _ _ _, aField_assembleWord _ _ _⟩
  · rintro ⟨rfl, rfl, rfl⟩
    exact (assembleWord_fields w).symm

/-- The test of R57, field by field. -/
theorem and_eq_assembleWord_iff (w mask : CommandWord) (op : BitVec 8) (b : BitVec 24) (a : BitVec 32) :
    w &&& mask = assembleWord op b a ↔
      opField w &&& opField mask = op ∧ bField w &&& bField mask = b ∧ aField w &&& aField mask = a := by
  rw [eq_assembleWord_iff]
  simp only [opField, bField, aField, BitVec.extractLsb'_and]

/-- CONFIG's mask tests the opcode alone. -/
theorem meets_opcode_iff (w : CommandWord) (op : BitVec 8) :
    w &&& 0xFF00000000000000#64 = assembleWord op 0 0 ↔ opField w = op := by
  have hmask : 0xFF00000000000000#64 = assembleWord (.allOnes 8) 0 0 := by decide
  rw [hmask, and_eq_assembleWord_iff, opField_assembleWord, bField_assembleWord, aField_assembleWord,
    BitVec.and_allOnes]
  simp

/-- WRITE's mask tests the opcode and `b`. -/
theorem meets_opcode_b_iff (w : CommandWord) (op : BitVec 8) :
    w &&& 0xFFFFFFFF00000000#64 = assembleWord op 0 0 ↔ opField w = op ∧ bField w = 0 := by
  have hmask : 0xFFFFFFFF00000000#64 = assembleWord (.allOnes 8) (.allOnes 24) 0 := by decide
  rw [hmask, and_eq_assembleWord_iff, opField_assembleWord, bField_assembleWord, aField_assembleWord,
    BitVec.and_allOnes, BitVec.and_allOnes]
  simp

/-- The mask of FINISH and RESET tests the whole word. -/
theorem meets_opcode_b_a_iff (w : CommandWord) (op : BitVec 8) :
    w &&& 0xFFFFFFFFFFFFFFFF#64 = assembleWord op 0 0 ↔ opField w = op ∧ bField w = 0 ∧ aField w = 0 := by
  have hmask : 0xFFFFFFFFFFFFFFFF#64 = .allOnes 64 := by decide
  rw [hmask, BitVec.and_allOnes, eq_assembleWord_iff]

/-! ### What the decoder answers -/

theorem decode_config {w : CommandWord} (hop : opField w = 1) :
    decode w = .command (.config (blockSizeOperand w) (miniBlockCountOperand w)) := by
  simp [decode, hop]

theorem decode_write {w : CommandWord} (hop : opField w = 2) (hb : bField w = 0) :
    decode w = .command (.write (valueOperand w)) := by
  simp [decode, hop, hb]

theorem decode_finish {w : CommandWord} (hop : opField w = 3) (hb : bField w = 0) (ha : aField w = 0) :
    decode w = .command .finish := by
  simp [decode, decodeNullary, hop, hb, ha]

theorem decode_reset {w : CommandWord} (hop : opField w = 4) (hb : bField w = 0) (ha : aField w = 0) :
    decode w = .command .reset := by
  simp [decode, decodeNullary, hop, hb, ha]

/-- The reserved words as R58 lists them: no command's opcode, or a must-be-zero field that is not zero. -/
def ReservedFields (w : CommandWord) : Prop :=
  opField w = 0 ∨ 5 ≤ (opField w).toNat ∨ (opField w = 2 ∧ bField w ≠ 0) ∨
    ((opField w = 3 ∨ opField w = 4) ∧ (bField w ≠ 0 ∨ aField w ≠ 0))

theorem decodeNullary_reserved {w : CommandWord} (i : Instr) (h : bField w ≠ 0 ∨ aField w ≠ 0) :
    ∃ r, decodeNullary w i = .reserved r := by
  unfold decodeNullary
  by_cases hb : bField w = 0
  · have ha : aField w ≠ 0 := h.resolve_left (not_not_intro hb)
    exact ⟨.fieldA, by rw [if_neg (not_not_intro hb), if_pos ha]⟩
  · exact ⟨.fieldB, if_pos hb⟩

theorem decode_reserved {w : CommandWord} (h : ReservedFields w) : ∃ r, decode w = .reserved r := by
  obtain hop | hop | ⟨hop, hb⟩ | ⟨hop | hop, hba⟩ := h
  · exact ⟨.opcode, by simp [decode, hop]⟩
  · have hne (k : BitVec 8) (hk : k.toNat < 5) : opField w ≠ k := by
      rintro rfl
      omega
    exact ⟨.opcode, by simp [decode, hne 0x01#8, hne 0x02#8, hne 0x03#8, hne 0x04#8]⟩
  · exact ⟨.fieldB, by simp only [decode, hop]; exact if_pos hb⟩
  · simpa [decode, hop] using decodeNullary_reserved .finish hba
  · simpa [decode, hop] using decodeNullary_reserved .reset hba

/-- A word of no row is in R58's list. -/
theorem reservedFields_of_no_row {w : CommandWord} (hconfig : opField w ≠ 1)
    (hwrite : ¬ (opField w = 2 ∧ bField w = 0)) (hfinish : ¬ (opField w = 3 ∧ bField w = 0 ∧ aField w = 0))
    (hreset : ¬ (opField w = 4 ∧ bField w = 0 ∧ aField w = 0)) : ReservedFields w := by
  have hop : opField w = 0 ∨ opField w = 1 ∨ opField w = 2 ∨ opField w = 3 ∨ opField w = 4 ∨
      5 ≤ (opField w).toNat := by bv_omega
  unfold ReservedFields
  obtain hop | hop | hop | hop | hop | hop := hop
  · exact .inl hop
  · exact absurd hop hconfig
  · exact .inr (.inr (.inl ⟨hop, fun hb => hwrite ⟨hop, hb⟩⟩))
  · exact .inr (.inr (.inr ⟨.inl hop, not_and_or.mp fun hba => hfinish ⟨hop, hba⟩⟩))
  · exact .inr (.inr (.inr ⟨.inr hop, not_and_or.mp fun hba => hreset ⟨hop, hba⟩⟩))
  · exact .inr (.inl hop)

/-- Settles O1: each row's test says which fields the word has, and the decoder reads just those. -/
theorem decodeFollowsOpcodeMap : Obligations.DecodeFollowsOpcodeMap := by
  intro w
  have hconfig := meets_opcode_iff w 1
  have hwrite := meets_opcode_b_iff w 2
  have hfinish := meets_opcode_b_a_iff w 3
  have hreset := meets_opcode_b_a_iff w 4
  refine ⟨fun h => decode_config (hconfig.mp h), fun h => ?_, fun h => ?_, fun h => ?_, fun h1 h2 h3 h4 => ?_⟩
  · obtain ⟨hop, hb⟩ := hwrite.mp h
    exact decode_write hop hb
  · obtain ⟨hop, hb, ha⟩ := hfinish.mp h
    exact decode_finish hop hb ha
  · obtain ⟨hop, hb, ha⟩ := hreset.mp h
    exact decode_reset hop hb ha
  · exact decode_reserved (reservedFields_of_no_row (h1 ∘ hconfig.mpr) (h2 ∘ hwrite.mpr) (h3 ∘ hfinish.mpr)
      (h4 ∘ hreset.mpr))

/-! ### A reserved word at the step -/

/-- With every beat taken, a step at a word runs it (R67). -/
theorem step_eq_runWord {s : State} {w : CommandWord} {rest : List HostInput} (hin : s.inputs = .command w :: rest)
    (hrsp : s.rspQueue = []) (hpay : s.payQueue = []) : step s = runWord w { s with inputs := rest } := by
  simp [step, hin, (drained_iff s).mpr ⟨hrsp, hpay⟩]

theorem runWord_of_reserved {w : CommandWord} {r : Reserved} (s : State) (h : decode w = .reserved r) :
    runWord w s = reservedWord s := by
  simp [runWord, h]

theorem reservedWord_of_err_zero {s : State} (h : s.err = 0) :
    reservedWord s = .next ((s.withErr .illegal).withResponse none) := by
  have hphase : s.phase ≠ .faulted := fun e => (phase_eq_faulted s).mp e h
  simp [reservedWord, hphase, raise, respond]

/-- Settles O9: the decoder finds the word reserved, and outside phase FAULT that raises ERR_ILLEGAL. -/
theorem reservedWordIsIllegal : Obligations.ReservedWordIsIllegal := by
  intro s w rest hin hrsp hpay herr hfields
  obtain ⟨r, hdec⟩ := decode_reserved hfields
  rw [step_eq_runWord hin hrsp hpay, runWord_of_reserved _ hdec,
    reservedWord_of_err_zero (s := { s with inputs := rest }) herr]
  simp [State.withResponse, State.withErr, State.status, FaultCode.code, payBeats, hrsp, hpay]

end Sys2Proof.Machine
end

section
/-! SUPPORT. Which response carries a payload (spec/30_encoding.md R61, R62): the state a command has reached answers with
its payload where a FINISH got there without fault, and with the status byte alone everywhere else. -/

namespace Sys2Proof.Machine

/-! ### The payload's length -/

theorem uvarint32_length_pos (x : Word) : 1 ≤ (uvarint32 x).length := by
  unfold uvarint32 uvarintLoop
  split <;> simp

/-- Each varint of the header has at least one byte (spec/45_finish_reset.md R108). -/
theorem four_le_payload_length (s : State) : 4 ≤ (payload s).length := by
  have hbs := uvarint32_length_pos s.blockSize
  have hmc := uvarint32_length_pos s.miniBlockCount
  have hcount := uvarint32_length_pos s.totalValueCount
  have hfirst := uvarint32_length_pos s.firstValue
  simp only [payload, pageHeader, List.length_append]
  omega

/-- A response is no part of the page. -/
@[simp] theorem payload_withResponse (s : State) (p : Option (List Byte)) :
    payload (s.withResponse p) = payload s := rfl

@[simp] theorem status_withResponse (s : State) (p : Option (List Byte)) : (s.withResponse p).status = s.status := rfl

/-! ### The answer to a decoded word -/

/-- What the response carries beside the status byte when `d` has brought the block to `u`. -/
def answer (d : Decoded) (u : State) : Option (List Byte) :=
  if d = .command .finish ∧ u.err = 0 then some (payload u) else none

theorem answer_finish {u : State} (h : u.err = 0) : answer (.command .finish) u = some (payload u) :=
  if_pos ⟨rfl, h⟩

theorem answer_of_ne_finish {d : Decoded} (h : d ≠ .command .finish) (u : State) : answer d u = none :=
  if_neg fun hd => h hd.1

theorem answer_of_fault (d : Decoded) {u : State} (h : u.err ≠ 0) : answer d u = none :=
  if_neg fun hd => h hd.2

/-- Where `r` answers a next state, that is some state with its answer to `d` added, up to which no beat was offered:
`EndsInResponse` with the payload named. -/
def EndsInAnswer (d : Decoded) (s : State) (r : Result) : Prop :=
  ∀ t, r = .next t → ∃ u : State, t = u.withResponse (answer d u) ∧ u.rspQueue = s.rspQueue ∧ u.payQueue = s.payQueue

section
variable {d : Decoded} {s u : State}

theorem endsInAnswer_withResponse {p : Option (List Byte)} (hp : answer d u = p) (hrsp : u.rspQueue = s.rspQueue)
    (hpay : u.payQueue = s.payQueue) : EndsInAnswer d s (.next (u.withResponse p)) := by
  rintro _ ⟨⟩
  exact ⟨u, by rw [hp], hrsp, hpay⟩

theorem endsInAnswer_raise (c : FaultCode) (hrsp : u.rspQueue = s.rspQueue) (hpay : u.payQueue = s.payQueue) :
    EndsInAnswer d s (raise c u) :=
  endsInAnswer_withResponse (u := u.withErr c) (answer_of_fault d c.code_ne_zero) hrsp hpay

theorem endsInAnswer_flushBlock {rest : State → Result} (hrsp : u.rspQueue = s.rspQueue)
    (hpay : u.payQueue = s.payQueue) (hrest : ∀ m bytes, EndsInAnswer d s (rest (u.flushedWith m bytes))) :
    EndsInAnswer d s ((flushBlock u).andThen rest) := by
  obtain ⟨-, f, hr⟩ | ⟨-, -, hr⟩ | ⟨-, -, hr⟩ := flushBlock_cases u <;> rw [hr]
  · exact nofun
  · exact hrest _ _
  · exact endsInAnswer_raise .resource hrsp hpay

/-- In phase FAULT and where R127 forbids the command there is no payload; else its own meaning decides. -/
theorem endsInAnswer_guarded (i : Instr) {run : State → Result} (hrun : s.err = 0 → EndsInAnswer d s (run s)) :
    EndsInAnswer d s (guarded i run s) := by
  obtain ⟨herr, hr⟩ | ⟨-, -, hr⟩ | ⟨herr, -, hr⟩ := guarded_cases i run s <;> rw [hr]
  · exact endsInAnswer_withResponse (answer_of_fault d herr) rfl rfl
  · exact endsInAnswer_raise .protocol rfl rfl
  · exact hrun herr

theorem endsInAnswer_reservedWord (s : State) (r : Reserved) : EndsInAnswer (.reserved r) s (reservedWord s) := by
  unfold reservedWord
  split
  · exact endsInAnswer_withResponse (answer_of_ne_finish (by nofun) s) rfl rfl
  · exact endsInAnswer_raise .illegal rfl rfl

end

/-! ### The four commands -/

theorem endsInAnswer_configure (bs mc : Word) (s : State) :
    EndsInAnswer (.command (.config bs mc)) s (configure bs mc s) := by
  obtain ⟨-, hr⟩ | ⟨-, hr⟩ := configure_cases bs mc s <;> rw [hr]
  · exact endsInAnswer_withResponse (answer_of_ne_finish (by nofun) _) rfl rfl
  · exact endsInAnswer_raise .config rfl rfl

theorem endsInAnswer_acceptValue (v : Word) (s : State) : EndsInAnswer (.command (.write v)) s (acceptValue v s) := by
  have hans (u : State) : answer (.command (.write v)) u = none := answer_of_ne_finish (by nofun) u
  obtain ⟨-, hr⟩ | ⟨-, hr⟩ | ⟨-, -, ⟨-, hr⟩ | ⟨-, -, hr⟩ | ⟨-, -, hr⟩⟩ := acceptValue_cases v s <;> rw [hr]
  · exact endsInAnswer_raise .resource rfl rfl
  · exact endsInAnswer_withResponse (hans _) rfl rfl
  · exact nofun
  · exact endsInAnswer_withResponse (hans _) rfl rfl
  · exact endsInAnswer_flushBlock rfl rfl fun _ _ => endsInAnswer_withResponse (hans _) rfl rfl

/-- A FINISH that runs in a state without fault answers with the payload unless the flush faults. -/
theorem endsInAnswer_finishPage {s : State} (herr : s.err = 0) : EndsInAnswer (.command .finish) s (finishPage s) := by
  obtain ⟨-, hr⟩ | ⟨-, -, hr⟩ | ⟨-, -, hr⟩ := finishPage_cases s <;> rw [hr]
  · exact endsInAnswer_withResponse (answer_finish herr) rfl rfl
  · exact endsInAnswer_withResponse (answer_finish herr) rfl rfl
  · exact endsInAnswer_flushBlock rfl rfl fun _ _ => endsInAnswer_withResponse (answer_finish herr) rfl rfl

theorem endsInAnswer_exec (i : Instr) (s : State) : EndsInAnswer (.command i) s (exec i s) := by
  cases i with
  | config bs mc => exact endsInAnswer_guarded _ fun _ => endsInAnswer_configure bs mc s
  | write v => exact endsInAnswer_guarded _ fun _ => endsInAnswer_acceptValue v s
  | finish => exact endsInAnswer_guarded _ endsInAnswer_finishPage
  | reset =>
    exact endsInAnswer_guarded (run := fun u => respond u.clearPage) .reset fun _ =>
      endsInAnswer_withResponse (answer_of_ne_finish (by nofun) _) rfl rfl

theorem endsInAnswer_runWord (w : CommandWord) (s : State) : EndsInAnswer (decode w) s (runWord w s) := by
  obtain ⟨i, hd, hr⟩ | ⟨r, hd, hr⟩ := runWord_cases w s <;> rw [hd, hr]
  · exact endsInAnswer_exec i s
  · exact endsInAnswer_reservedWord s r

/-- Settles O11: the word ends in the answer of the state it has reached, and that carries a payload for a FINISH without
fault alone. -/
theorem responseFormat : Obligations.ResponseFormat := by
  intro s t w hw
  obtain ⟨u, rfl, hrsp, hpay⟩ := endsInAnswer_runWord w s t hw
  refine ⟨fun ⟨hd, herr⟩ => ?_, fun hnot => ?_⟩
  · have hans : answer (decode w) u = some (payload u) := if_pos ⟨hd, herr⟩
    exact ⟨four_le_payload_length _, by simp [hans, hpay], by simp [hans, hrsp]⟩
  · have hans : answer (decode w) u = none := if_neg hnot
    exact ⟨by simp [hans, hpay, payBeats], by simp [hans, hrsp]⟩

end Sys2Proof.Machine
end

section
/-! SUPPORT. CONFIG (spec/40_config.md R69, R70): what it answers in each phase, and the page it leaves, which a RESET
clears to itself. -/

namespace Sys2Proof.Machine

/-! ### The check of R70 -/

/-- The check splits the depth clause in two (`bs ≤ 128` or the whole depth); together they bound `bs` by `MAX_BLOCK_SIZE`. -/
theorem validConfig_iff (s : State) (bs mc : Nat) :
    validConfig s.extraSlots bs mc = true ↔ ValidConfig s.maxBlockSize bs mc := by
  have hdepth : (bs ≤ 128 ∨ bs ≤ 128 + s.extraSlots.val) ↔ bs ≤ s.maxBlockSize := by
    unfold State.maxBlockSize
    omega
  simp only [validConfig, decide_eq_true_eq, hdepth]

theorem configure_of_valid {bs mc : Word} {s : State} (h : ValidConfig s.maxBlockSize bs.toNat mc.toNat) :
    configure bs mc s = .next ((s.withConfig bs mc).clearPage.withResponse none) :=
  if_pos ((validConfig_iff s _ _).mpr h)

theorem configure_of_invalid {bs mc : Word} {s : State} (h : ¬ ValidConfig s.maxBlockSize bs.toNat mc.toNat) :
    configure bs mc s = .next ((s.withErr .config).withResponse none) :=
  if_neg fun hv => h ((validConfig_iff s _ _).mp hv)

/-! ### CONFIG and RESET by phase -/

theorem exec_config_of_err (bs mc : Word) {s : State} (herr : s.err ≠ 0) :
    exec (.config bs mc) s = .next (s.withResponse none) :=
  guarded_faulted _ (configure bs mc) herr

theorem exec_config_of_configured (bs mc : Word) {s : State} (herr : s.err = 0) (hconf : s.configured = true) :
    exec (.config bs mc) s = .next ((s.withErr .protocol).withResponse none) :=
  guarded_illegal (configure bs mc) herr (by rw [runsIn_config bs mc s herr, hconf]; rfl)

theorem exec_config_of_unconfigured (bs mc : Word) {s : State} (herr : s.err = 0) (hconf : s.configured = false) :
    exec (.config bs mc) s = configure bs mc s :=
  guarded_run (configure bs mc) herr (by rw [runsIn_config bs mc s herr, hconf]; rfl)

theorem exec_reset_of_configured {s : State} (herr : s.err = 0) (hconf : s.configured = true) :
    exec .reset s = .next (s.clearPage.withResponse none) :=
  guarded_run (fun u => respond u.clearPage) herr (by rw [runsIn_reset s herr, hconf])

/-! ### The response without a payload -/

/-- A response without a payload is one beat of the response channel and none of the payload channel. -/
theorem State.withResponse_none (s : State) :
    s.withResponse none = { s with rspQueue := s.rspQueue ++ [{ status := s.status, hasPayload := false }] } := by
  simp [State.withResponse, payBeats]

/-- `STATUS` of an open page without fault (spec/10_state.md R24). -/
theorem State.status_opened {s : State} (herr : s.err = 0) (hconf : s.configured = true)
    (hfin : s.finalized = false) : s.status = 0x08#8 := by
  simp [State.status, herr, hconf, hfin]

/-! ### Clearing a page twice -/

theorem Memory.zeroFill_zeroFill (m : Memory) (n : Nat) : (m.zeroFill n).zeroFill n = m.zeroFill n := by
  simp [Memory.zeroFill]

/-- A cleared page stays as it is when it is cleared again over the same slots, answered or not. -/
theorem State.clearPage_of_cleared (s : State) (p : Option (List Byte)) :
    (s.clearPage.withResponse p).clearPage = s.clearPage.withResponse p := by
  simp [State.clearPage, State.withResponse, State.status, Memory.zeroFill_zeroFill]

/-! ### The obligation -/

/-- A RESET right after a command that cleared the page changes nothing: the page is already clear
(spec/45_finish_reset.md R110). -/
theorem exec_reset_of_cleared {u : State} (p : Option (List Byte)) (herr : u.err = 0) (hconf : u.configured = true) :
    exec .reset (u.clearPage.withResponse p) = .next ((u.clearPage.withResponse p).withResponse none) := by
  rw [exec_reset_of_configured (s := u.clearPage.withResponse p) herr hconf, State.clearPage_of_cleared]

/-- Settles O19: the guard decides phase FAULT and a second CONFIG, the check of R70 the rest; a RESET finds the page
cleared over the same slots. -/
theorem configRule : Obligations.ConfigRule := by
  intro bs mc s
  refine ⟨fun herr => ?_, fun herr hconf => ?_, fun herr hconf hbad => ?_, fun herr hconf hvalid => ?_⟩
  · rw [exec_config_of_err bs mc herr, State.withResponse_none]
  · rw [exec_config_of_configured bs mc herr hconf, State.withResponse_none]
    rfl
  · rw [exec_config_of_unconfigured bs mc herr hconf, configure_of_invalid hbad, State.withResponse_none]
    rfl
  · have hstatus : (s.withConfig bs mc).clearPage.status = 0x08#8 := State.status_opened herr rfl rfl
    have hnext : (s.withConfig bs mc).clearPage.withResponse none =
        { (s.withConfig bs mc).clearPage with
          rspQueue := s.rspQueue ++ [{ status := 0x08#8, hasPayload := false }] } := by
      rw [State.withResponse_none, hstatus]
      rfl
    refine ⟨s.pd.zeroFill bs.toNat, bs / mc, (s.withConfig bs mc).clearPage.withResponse none, hnext, ?_,
      BitVec.toNat_udiv, s.pd.read_zeroFill bs.toNat, ?_⟩
    · rw [exec_config_of_unconfigured bs mc herr hconf, configure_of_valid hvalid]
    · rw [exec_reset_of_cleared none (u := s.withConfig bs mc) herr rfl, State.withResponse_none,
        status_withResponse, hstatus]

end Sys2Proof.Machine
end

section
/-! SUPPORT. WRITE (spec/41_write.md R73 to R78): what a value does in an open page, first or later, and how the block
closes. -/

namespace Sys2Proof.Machine

/-! ### WRITE in phase OPEN -/

/-- The guard lets WRITE run in an open page (spec/60_exceptions.md R127). -/
theorem exec_write_of_opened (v : Word) {s : State} (herr : s.err = 0) (hconf : s.configured = true)
    (hfin : s.finalized = false) : exec (.write v) s = acceptValue v s :=
  guarded_run (acceptValue v) herr (by rw [runsIn_write v s herr, hconf, hfin]; rfl)

/-- The response of a command that ends in an open page without fault. -/
theorem respond_of_opened {s : State} (herr : s.err = 0) (hconf : s.configured = true) (hfin : s.finalized = false) :
    respond s = .next { s with rspQueue := s.rspQueue ++ [{ status := 0x08#8, hasPayload := false }] } := by
  rw [respond, State.withResponse_none, State.status_opened herr hconf hfin]

theorem acceptValue_first (v : Word) {s : State} (hzero : s.totalValueCount = 0) :
    acceptValue v s = respond (s.recordFirst v) := by
  have hmax : s.totalValueCount ≠ 0xFFFFFFFF#32 := by
    rw [hzero]
    decide
  rw [acceptValue, if_neg hmax, if_pos hzero]

theorem acceptValue_later (v : Word) {s : State} (hzero : s.totalValueCount ≠ 0)
    (hmax : s.totalValueCount ≠ 0xFFFFFFFF#32) (hslot : s.pendingCount.toNat < s.blockSize.toNat) :
    acceptValue v s = closeBlock (s.recordDelta v) := by
  rw [acceptValue, if_neg hmax, if_neg hzero, if_neg (by omega)]

/-! ### The flush trigger -/

theorem closeBlock_of_ne {s : State} (h : s.pendingCount ≠ s.blockSize) : closeBlock s = respond s := if_neg h

theorem closeBlock_of_eq {s : State} (h : s.pendingCount = s.blockSize) :
    closeBlock s = (flushBlock s).andThen respond := if_pos h

/-- Below the block size the increment of `pending_count` does not wrap, so the test of spec/41_write.md
R78 on 32-bit patterns is the test on numbers. -/
theorem pendingCount_recordDelta_eq_iff (v : Word) {s : State} (hslot : s.pendingCount.toNat < s.blockSize.toNat) :
    (s.recordDelta v).pendingCount = (s.recordDelta v).blockSize ↔
      s.pendingCount.toNat + 1 = s.blockSize.toNat := by
  rw [State.recordDelta_pendingCount, State.recordDelta_blockSize]
  bv_omega

/-! ### The delta and the minimum -/

/-- The subtraction of spec/00_scope.md R10 wraps modulo `2^32`. -/
theorem delta_toNat (s : State) (v : Word) :
    (delta s v).toNat = (v.toNat + 2 ^ 32 - s.previousValue.toNat) % 2 ^ 32 := by
  unfold delta
  bv_omega

/-- No i32 exceeds the pattern of an unset minimum (spec/10_state.md R20). -/
theorem smin_unsetMin (d : Word) : smin unsetMin d = d := by
  have hmax : ¬ unsetMin.toInt < d.toInt := by
    have hunset : unsetMin.toInt = 2 ^ 31 - 1 := by decide
    have hd : d.toInt < 2 ^ 31 := BitVec.toInt_lt
    omega
  have hslt : ¬ unsetMin.slt d := by rwa [BitVec.slt_iff_toInt_lt]
  exact if_neg hslt

/-! ### The obligations -/

/-- Settles O22: the first value never reaches the flush trigger. -/
theorem firstWriteRule : Obligations.FirstWriteRule := by
  intro s v herr hconf hfin hzero
  rw [exec_write_of_opened v herr hconf hfin, acceptValue_first v hzero,
    respond_of_opened (s := s.recordFirst v) herr hconf hfin]
  rfl

/-- Settles O23: both cases go through the state with the delta recorded; the flush trigger tells them apart. -/
theorem laterWriteRule : Obligations.LaterWriteRule := by
  intro s v herr hconf hfin hzero hmax hslot
  have hexec : exec (.write v) s = closeBlock (s.recordDelta v) := by
    rw [exec_write_of_opened v herr hconf hfin, acceptValue_later v hzero hmax hslot]
  have htrigger := pendingCount_recordDelta_eq_iff v hslot
  refine ⟨s.pd.write s.pendingCount.toNat (delta s v), delta s v, smin s.minDelta (delta s v), s.recordDelta v, rfl,
    fun hopen => ?_, fun hfull => ?_, delta_toNat s v, fun j => s.pd.read_write _ j _, smin_toInt _ _, fun hunset => ?_⟩
  · have hne : (s.recordDelta v).pendingCount ≠ (s.recordDelta v).blockSize :=
      mt htrigger.mp (by omega)
    rw [hexec, closeBlock_of_ne hne, respond_of_opened (s := s.recordDelta v) herr hconf hfin]
    rfl
  · rw [hexec, closeBlock_of_eq (htrigger.mpr hfull)]
  · rw [hunset]
    exact smin_unsetMin _

end Sys2Proof.Machine
end

section
/-! SUPPORT. FLUSH_BLOCK (spec/42_flush_block.md R82 to R89): the wrapped subtraction, the bit-length as the least width that
fits, the width of a mini-block as the least width that fits its valid slots, and the bytes a flush appends. -/

namespace Sys2Proof.Machine

/-! ### The subtraction -/

theorem toNat_sub_eq_mod (a b : Word) : (a - b).toNat = (a.toNat + 2 ^ 32 - b.toNat) % 2 ^ 32 := by
  bv_omega

/-- Above a lower bound the wrapped difference does not wrap, read as u32 (spec/42_flush_block.md R82). -/
theorem toNat_sub_eq_toInt_sub {a b : Word} (h : b.toInt ≤ a.toInt) : ((a - b).toNat : Int) = a.toInt - b.toInt := by
  rw [toNat_sub_eq_mod]
  simp only [BitVec.toInt_eq_toNat_cond] at h ⊢
  split at h <;> split at h <;> omega

/-- The one way FLUSH_BLOCK runs to its end. -/
theorem eq_flushedWith_of_flushBlock {s t : State} (h : flushBlock s = .flushed t) :
    t = s.flushedWith (flushMemory s) (flushBytes s) := by
  obtain ⟨-, f, hr⟩ | ⟨-, -, hr⟩ | ⟨-, -, hr⟩ := flushBlock_cases s <;> rw [hr] at h
  · cases h
  · exact (FlushResult.flushed.inj h).symm
  · cases h

/-- Settles O28: a slot below `pending_count` loses the minimum, every other slot is left alone. -/
theorem minSubtraction : Obligations.MinSubtraction := by
  intro s t ht
  obtain rfl := eq_flushedWith_of_flushBlock ht
  have hread := Memory.read_subtractMin s.minDelta s.pendingCount.toNat s.pd
  refine ⟨fun j hj => ?_, fun j hj => ?_, fun hleast j hj => ?_⟩
  · rw [State.flushedWith_pd, hread, if_pos hj, toNat_sub_eq_mod]
  · rw [State.flushedWith_pd, hread, if_neg (by omega)]
  · rw [State.flushedWith_pd, hread, if_pos hj, toNat_sub_eq_toInt_sub (hleast j hj)]

/-! ### The bit-length -/

/-- The bit-length is the least width that fits: every fact of spec/42_flush_block.md R84 follows from this. -/
theorem bitlen_le_iff (x : Word) (b : Nat) : bitlen x ≤ b ↔ x.toNat < 2 ^ b := by
  unfold bitlen
  by_cases hx : x = 0
  · simp [hx]
  · have hne : x.toNat ≠ 0 := fun h => hx (BitVec.eq_of_toNat_eq h)
    rw [if_neg hx, Nat.succ_le_iff, Nat.log2_lt hne]

theorem lt_bitlen_iff (x : Word) (b : Nat) : b < bitlen x ↔ 2 ^ b ≤ x.toNat := by
  rw [← not_le, bitlen_le_iff, not_lt]

theorem bitlen_le_32 (x : Word) : bitlen x ≤ 32 := (bitlen_le_iff x 32).mpr x.isLt

/-- Settles O29: bounds and uniqueness are the two readings of the least width that fits; the examples evaluate. -/
theorem bitlenIsMinimal : Obligations.BitlenIsMinimal := by
  refine ⟨rfl, fun x hx => ?_, by decide⟩
  have hpos : 0 < bitlen x := by
    rw [lt_bitlen_iff]
    exact Nat.pos_of_ne_zero fun h => hx (BitVec.eq_of_toNat_eq h)
  refine ⟨hpos, bitlen_le_32 x, (lt_bitlen_iff x _).mp (by omega), (bitlen_le_iff x _).mp le_rfl,
    fun b hlow hhigh hb => ?_⟩
  have hle := (bitlen_le_iff x b).mpr hhigh
  have hlt := (lt_bitlen_iff x (b - 1)).mpr hlow
  omega

/-! ### The width of a mini-block -/

/-- The OR of a range fits in a width exactly when each slot of it does. -/
theorem Memory.orSlots_lt_iff (m : Memory) (lo k b : Nat) :
    (m.orSlots lo k).toNat < 2 ^ b ↔ ∀ j < k, (m.read (lo + j)).toNat < 2 ^ b := by
  induction k with
  | zero => simp [Memory.orSlots]
  | succ k ih =>
    have hor (x y : Nat) : x ||| y < 2 ^ b ↔ x < 2 ^ b ∧ y < 2 ^ b :=
      ⟨fun h => ⟨Nat.left_le_or.trans_lt h, Nat.right_le_or.trans_lt h⟩, fun ⟨hx, hy⟩ => Nat.or_lt_two_pow hx hy⟩
    rw [Memory.orSlots, BitVec.toNat_or, hor, ih, Nat.forall_lt_succ_right]

theorem lt_touched_iff {n mbs : Nat} (hmbs : 0 < mbs) (i : Nat) : i < touched n mbs ↔ i * mbs < n :=
  lt_ceilDiv_iff n mbs i hmbs

/-- A width fits a touched mini-block exactly when it fits each of its valid slots; its own width is the least such
(spec/42_flush_block.md R85). -/
theorem miniBlockWidth_le_iff (m : Memory) {n mbs i : Nat} (hmbs : 0 < mbs) (hi : i * mbs < n) (b : Nat) :
    miniBlockWidth m n mbs i ≤ b ↔
      ∀ j, i * mbs ≤ j → j < (i + 1) * mbs → j < n → (m.read j).toNat < 2 ^ b := by
  rw [miniBlockWidth, if_pos ((lt_touched_iff hmbs i).mpr hi), bitlen_le_iff, Memory.orSlots_lt_iff]
  unfold miniBlockBase miniBlockValidEnd
  constructor
  · intro h j hlo hhi hn
    have hj := h (j - i * mbs) (by omega)
    rwa [Nat.add_sub_cancel' hlo] at hj
  · intro h j hj
    exact h _ (by omega) (by omega) (by omega)

/-- The filler of an untouched mini-block (spec/42_flush_block.md R86). -/
theorem miniBlockWidth_of_untouched (m : Memory) {n mbs i : Nat} (hi : touched n mbs ≤ i) :
    miniBlockWidth m n mbs i = 0 := if_neg (by omega)

theorem miniBlockWidth_le_32 (m : Memory) (n mbs i : Nat) : miniBlockWidth m n mbs i ≤ 32 := by
  unfold miniBlockWidth
  split
  · exact bitlen_le_32 _
  · omega

/-! ### The mini-blocks of a configured block -/

theorem ConfigInv.miniBlockSize_pos {s : State} (h : ConfigInv s) : 0 < s.miniBlockSize.toNat := by
  obtain ⟨hbs, -, -, hmc, hdvd, -⟩ := h.valid
  rw [h.quotient]
  exact Nat.div_pos (Nat.le_of_dvd hbs (Nat.dvd_of_mod_eq_zero hdvd)) hmc

/-- The mini-blocks cut the block without remainder (spec/40_config.md R71). -/
theorem ConfigInv.count_mul_size {s : State} (h : ConfigInv s) :
    s.miniBlockCount.toNat * s.miniBlockSize.toNat = s.blockSize.toNat := by
  obtain ⟨-, -, -, -, hdvd, -⟩ := h.valid
  rw [h.quotient]
  exact Nat.mul_div_cancel' (Nat.dvd_of_mod_eq_zero hdvd)

theorem ConfigInv.touched_le {s : State} (h : ConfigInv s) {n : Nat} (hn : n ≤ s.blockSize.toNat) :
    touched n s.miniBlockSize.toNat ≤ s.miniBlockCount.toNat := by
  rw [touched, ceilDiv_le_iff _ _ _ h.miniBlockSize_pos, h.count_mul_size]
  exact hn

/-- The touched mini-blocks, said by their first slot. -/
theorem filter_range_touched {n mc mbs : Nat} (hmbs : 0 < mbs) (hle : touched n mbs ≤ mc) :
    (List.range mc).filter (fun i => i * mbs < n) = List.range (touched n mbs) := by
  obtain ⟨k, rfl⟩ := Nat.exists_eq_add_of_le hle
  simp only [← lt_touched_iff hmbs, List.range_add, List.filter_append]
  rw [List.filter_eq_self.mpr (by simp), List.filter_eq_nil_iff.mpr (by simp), List.append_nil]

/-! ### The width bytes -/

theorem widthBytes_getElem (m : Memory) (n mc mbs : Nat) {i : Nat} (hi : i < (widthBytes m n mc mbs).length) :
    (widthBytes m n mc mbs)[i] = BitVec.ofNat 8 (miniBlockWidth m n mbs i) := by
  simp [widthBytes]

/-- A width fits its byte. -/
theorem toNat_ofNat_miniBlockWidth (m : Memory) (n mbs i : Nat) :
    (BitVec.ofNat 8 (miniBlockWidth m n mbs i)).toNat = miniBlockWidth m n mbs i := by
  have := miniBlockWidth_le_32 m n mbs i
  rw [BitVec.toNat_ofNat]
  omega

theorem widthBytes_map_toNat (m : Memory) (n mc mbs : Nat) :
    (widthBytes m n mc mbs).map BitVec.toNat = (List.range mc).map (miniBlockWidth m n mbs) := by
  simp only [widthBytes, List.map_map, Function.comp_def, toNat_ofNat_miniBlockWidth]

/-- The filler bytes add nothing to the sum of the widths. -/
theorem sum_miniBlockWidth (m : Memory) {n mc mbs : Nat} (hle : touched n mbs ≤ mc) :
    ((List.range mc).map (miniBlockWidth m n mbs)).sum =
      ((List.range (touched n mbs)).map (miniBlockWidth m n mbs)).sum := by
  obtain ⟨k, rfl⟩ := Nat.exists_eq_add_of_le hle
  simp [List.range_add, Function.comp_def, miniBlockWidth_of_untouched]

/-! ### The packed groups -/

theorem packMiniBlock_length (m : Memory) (n mbs i : Nat) :
    (packMiniBlock m n mbs i).length = mbs / 8 * miniBlockWidth m n mbs i := by
  simp [packMiniBlock, List.length_flatMap, packGroup_length]

theorem packedBytes_length (m : Memory) (n mbs : Nat) :
    (packedBytes m n mbs).length = mbs / 8 * ((List.range (touched n mbs)).map (miniBlockWidth m n mbs)).sum := by
  simp [packedBytes, List.length_flatMap, packMiniBlock_length, List.sum_map_mul_left]

/-- The packed groups with each width read back from its byte, as a reader of the block forms them. -/
theorem packedBytes_eq_flatMap (m : Memory) {n mc mbs : Nat} (hmbs : 0 < mbs) (hle : touched n mbs ≤ mc) :
    packedBytes m n mbs =
      ((List.range mc).filter fun i => i * mbs < n).flatMap fun i =>
        (List.range (mbs / 8)).flatMap fun g =>
          packGroup m ((widthBytes m n mc mbs).getD i 0).toNat (groupBase mbs i g) := by
  rw [filter_range_touched hmbs hle, packedBytes]
  refine List.flatMap_congr fun i hi => ?_
  have hlt : i < (widthBytes m n mc mbs).length := by
    rw [widthBytes_length]
    exact (List.mem_range.mp hi).trans_le hle
  rw [packMiniBlock, List.getD_eq_getElem _ _ hlt, widthBytes_getElem, toNat_ofNat_miniBlockWidth]

/-! ### The obligation -/

/-- Settles O30: a width byte fits exactly the valid slots of its mini-block, and the filler bytes drop out of the packed
groups and of the sum. -/
theorem flushedBlockLayout : Obligations.FlushedBlockLayout := by
  intro s t hconf _ hn ht n mbs
  obtain rfl := eq_flushedWith_of_flushBlock ht
  have hmbs := hconf.miniBlockSize_pos
  have hle := hconf.touched_le hn
  have hlen := widthBytes_length (flushMemory s) n s.miniBlockCount.toNat mbs
  refine ⟨widthBytes (flushMemory s) n s.miniBlockCount.toNat mbs, packedBytes (flushMemory s) n mbs, rfl, hlen,
    fun i hi => ?_, ?_, ?_, rfl, rfl, rfl, rfl, rfl⟩
  · rw [widthBytes_getElem, toNat_ofNat_miniBlockWidth]
    refine ⟨miniBlockWidth_le_32 _ _ _ _, fun htouched => ?_, fun hrest => ?_⟩
    · have hwidth := miniBlockWidth_le_iff (flushMemory s) hmbs htouched
      exact ⟨(hwidth _).mp le_rfl, fun b => (hwidth b).mpr⟩
    · have huntouched : touched n mbs ≤ i := (ceilDiv_le_iff n mbs i hmbs).mpr hrest
      rw [miniBlockWidth_of_untouched _ huntouched]
      rfl
  · rw [hlen]
    exact packedBytes_eq_flatMap _ hmbs hle
  · rw [widthBytes_map_toNat, sum_miniBlockWidth _ hle]
    exact packedBytes_length _ _ _

end Sys2Proof.Machine
end

section
/-! SUPPORT. FINISH and RESET (spec/45_finish_reset.md R106, R107, R110): where a FINISH without fault ends, and what either
command answers there. -/

namespace Sys2Proof.Machine

/-! ### FINISH in phase FINALIZED -/

/-- `STATUS` of a finalized page without fault (spec/10_state.md R24). -/
theorem State.status_closed {s : State} (herr : s.err = 0) (hconf : s.configured = true)
    (hfin : s.finalized = true) : s.status = 0x18#8 := by
  simp [State.status, herr, hconf, hfin]

/-- In a finalized page the guard lets FINISH run, and its body replays the payload (R107). -/
theorem exec_finish_of_finalized {s : State} (herr : s.err = 0) (hconf : s.configured = true)
    (hfin : s.finalized = true) : exec .finish s = .next (s.withResponse (some (payload s))) := by
  have hrun : exec .finish s = finishPage s := guarded_run finishPage herr (by rw [runsIn_finish s herr, hconf])
  rw [hrun, finishPage, if_pos hfin, respondWith]

/-! ### Where a FINISH without fault ends -/

/-- FINISH's body sets `finalized` and keeps `configured`, unless the flush faults. -/
theorem finishPage_finalizes {s t : State} (h : finishPage s = .next t) (ht : t.err = 0) :
    t.finalized = true ∧ t.configured = s.configured := by
  obtain ⟨hfin, hr⟩ | ⟨-, -, hr⟩ | ⟨-, -, hr⟩ := finishPage_cases s
  · obtain ⟨⟩ := hr.symm.trans h
    exact ⟨hfin, rfl⟩
  · obtain ⟨⟩ := hr.symm.trans h
    exact ⟨rfl, rfl⟩
  · obtain ⟨-, f, hflush⟩ | ⟨-, -, hflush⟩ | ⟨-, -, hflush⟩ := flushBlock_cases s <;> rw [hflush] at hr
    · cases hr.symm.trans h
    · obtain ⟨⟩ := hr.symm.trans h
      exact ⟨rfl, rfl⟩
    · obtain ⟨⟩ := hr.symm.trans h
      exact absurd ht FaultCode.resource.code_ne_zero

/-- A FINISH that ends without fault was in a configured block (spec/60_exceptions.md R122, R127) and leaves it finalized. -/
theorem exec_finish_finalizes {s t : State} (h : exec .finish s = .next t) (ht : t.err = 0) :
    t.configured = true ∧ t.finalized = true := by
  obtain ⟨herr, hr⟩ | ⟨-, -, hr⟩ | ⟨herr, hruns, hr⟩ := guarded_cases .finish finishPage s
  · obtain ⟨⟩ := hr.symm.trans h
    exact absurd ht herr
  · obtain ⟨⟩ := hr.symm.trans h
    exact absurd ht FaultCode.protocol.code_ne_zero
  · obtain ⟨hfin, hconf⟩ := finishPage_finalizes (hr.symm.trans h) ht
    rw [runsIn_finish s herr] at hruns
    exact ⟨hconf.trans hruns, hfin⟩

/-- It hands over the payload of the state it leaves: the response it ends in is no part of that payload. -/
theorem exec_finish_payQueue {s t : State} (h : exec .finish s = .next t) (ht : t.err = 0) :
    t.payQueue = s.payQueue ++ payBeats (payload t) := by
  obtain ⟨u, rfl, -, hpay⟩ := endsInAnswer_exec .finish s t h
  rw [State.withResponse_err] at ht
  rw [State.withResponse_payQueue, payload_withResponse, answer_finish ht, hpay, Option.getD_some]

/-- Settles O38: the first FINISH leaves a finalized page and has handed over that page's payload, which is what FINISH
replays there. -/
theorem finishIsIdempotent : Obligations.FinishIsIdempotent := by
  intro s t _ h ht
  obtain ⟨hconf, hfin⟩ := exec_finish_finalizes h ht
  refine ⟨payload t, exec_finish_payQueue h ht, ?_⟩
  rw [exec_finish_of_finalized ht hconf hfin, State.withResponse, State.status_closed ht hconf hfin]
  rfl

/-! ### RESET by phase -/

theorem exec_reset_of_err {s : State} (herr : s.err ≠ 0) : exec .reset s = .next (s.withResponse none) :=
  guarded_faulted .reset (fun u => respond u.clearPage) herr

theorem exec_reset_of_unconfigured {s : State} (herr : s.err = 0) (hconf : s.configured = false) :
    exec .reset s = .next ((s.withErr .protocol).withResponse none) :=
  guarded_illegal (fun u => respond u.clearPage) herr (by rw [runsIn_reset s herr, hconf])

/-- Settles O40: the guard decides phases FAULT and UNCONFIGURED; elsewhere the cleared page is the state asked for, with
`PD` zero-filled below the block size, and its status is that of an open page. -/
theorem resetRule : Obligations.ResetRule := by
  intro s
  refine ⟨fun herr => ?_, fun herr hconf => ?_, fun herr hconf => ?_⟩
  · rw [exec_reset_of_err herr, State.withResponse_none]
  · rw [exec_reset_of_unconfigured herr hconf, State.withResponse_none]
    rfl
  · have hstatus : s.clearPage.status = 0x08#8 := State.status_opened herr hconf rfl
    refine ⟨s.pd.zeroFill s.blockSize.toNat, ?_, s.pd.read_zeroFill s.blockSize.toNat⟩
    rw [exec_reset_of_configured herr hconf, State.withResponse_none, hstatus]
    rfl

end Sys2Proof.Machine
end

section
/-! SUPPORT. The faults (spec/60_exceptions.md R120 to R125): the causes of a fault listed once, each with the state it
leaves, and that a word ends in phase FAULT by one of them alone. -/

namespace Sys2Proof.Machine

/-! ### A word in phase FAULT -/

theorem runWord_of_command {w : CommandWord} {i : Instr} (s : State) (h : decode w = .command i) :
    runWord w s = exec i s := by
  simp [runWord, h]

theorem reservedWord_of_err {s : State} (h : s.err ≠ 0) : reservedWord s = .next (s.withResponse none) :=
  if_pos ((phase_eq_faulted s).mpr h)

theorem exec_of_err (i : Instr) {s : State} (h : s.err ≠ 0) : exec i s = .next (s.withResponse none) := by
  cases i with
  | config bs mc => exact exec_config_of_err bs mc h
  | write v => exact guarded_faulted _ (acceptValue v) h
  | finish => exact guarded_faulted _ finishPage h
  | reset => exact exec_reset_of_err h

theorem runWord_of_err (w : CommandWord) {s : State} (h : s.err ≠ 0) : runWord w s = .next (s.withResponse none) := by
  obtain ⟨i, -, hr⟩ | ⟨r, -, hr⟩ := runWord_cases w s <;> rw [hr]
  · exact exec_of_err i h
  · exact reservedWord_of_err h

/-- Settles O12: the guard and the reserved word both test the phase first. -/
theorem faultPhaseIgnoresEveryWord : Obligations.FaultPhaseIgnoresEveryWord := by
  intro s w herr
  rw [runWord_of_err w herr, State.withResponse_none]
  rfl

@[simp] theorem State.transfer_err (s : State) : s.transfer.err = s.err := by
  obtain ⟨r, rs, -, hr⟩ | ⟨p, ps, -, -, hr⟩ | ⟨-, -, hr⟩ := transfer_cases s <;> rw [hr]

/-- Settles O15: no transfer touches `err`, and a word in phase FAULT is ignored. -/
theorem onlyHardResetLeavesFault : Obligations.OnlyHardResetLeavesFault := by
  intro s t ht herr
  obtain ⟨-, hr⟩ | ⟨rest, -, hr⟩ | ⟨rest, hin, hr⟩ | ⟨w, rest, -, ⟨-, hr⟩ | ⟨-, hr⟩⟩ := step_cases s
  · obtain ⟨⟩ := hr.symm.trans ht
    exact .inl rfl
  · obtain ⟨⟩ := hr.symm.trans ht
    exact .inl (State.transfer_err _)
  · obtain ⟨⟩ := hr.symm.trans ht
    exact .inr ⟨by rw [hin, List.head?_cons], (phase_eq_unconfigured _).mpr ⟨rfl, rfl⟩⟩
  · obtain ⟨⟩ := hr.symm.trans ht
    exact .inl (State.transfer_err _)
  · rw [runWord_of_err w (s := { s with inputs := rest }) herr] at hr
    obtain ⟨⟩ := hr.symm.trans ht
    exact .inl rfl

/-! ### The causes of a fault -/

/-- From `s`, without a fault recorded, a word that decodes to `d` raises `c` and leaves `t`: one constructor per cause, in
the order of spec/60_exceptions.md R122. The two capacity faults lose the data state (R124), the others write `err` only. -/
inductive RaisesFault (s : State) : Decoded → FaultCode → State → Prop where
  | illegal (r : Reserved) : RaisesFault s (.reserved r) .illegal ((s.withErr .illegal).withResponse none)
  | protocol (i : Instr) (hphase : runsIn i s.phase = false) :
    RaisesFault s (.command i) .protocol ((s.withErr .protocol).withResponse none)
  | config (bs mc : Word) (hconf : s.configured = false) (hbad : ¬ ValidConfig s.maxBlockSize bs.toNat mc.toNat) :
    RaisesFault s (.command (.config bs mc)) .config ((s.withErr .config).withResponse none)
  | counter (v : Word) (hconf : s.configured = true) (hfin : s.finalized = false)
    (hmax : s.totalValueCount = 0xFFFFFFFF#32) :
    RaisesFault s (.command (.write v)) .resource ((s.withErr .resource).withResponse none)
  | writeCapacity (v : Word) (hconf : s.configured = true) (hfin : s.finalized = false)
    (hmax : s.totalValueCount ≠ 0xFFFFFFFF#32) (hcap : s.outCap ≠ none) :
    RaisesFault s (.command (.write v)) .resource (((s.recordDelta v).loseData.withErr .resource).withResponse none)
  | finishCapacity (hconf : s.configured = true) (hfin : s.finalized = false) (hcap : s.outCap ≠ none) :
    RaisesFault s (.command .finish) .resource ((s.loseData.withErr .resource).withResponse none)

/-- Where `r` answers a next state with a fault recorded, the fault is one of the list. -/
def FaultsAsListed (d : Decoded) (s : State) (r : Result) : Prop :=
  ∀ t, r = .next t → t.err ≠ 0 → ∃ c, RaisesFault s d c t

theorem ne_none_of_fitsOut_eq_false {cap : Option Nat} {len : Nat} (h : fitsOut cap len = false) : cap ≠ none := by
  rintro rfl
  cases h

section
variable {d : Decoded} {s u : State}

theorem faultsAsListed_withResponse (p : Option (List Byte)) (herr : u.err = 0) :
    FaultsAsListed d s (.next (u.withResponse p)) := by
  rintro _ ⟨⟩ hne
  exact absurd herr hne

theorem RaisesFault.faultsAsListed {c : FaultCode} (h : RaisesFault s d c u) : FaultsAsListed d s (.next u) := by
  rintro _ ⟨⟩ -
  exact ⟨c, h⟩

/-- A flush faults only where `OUT_CAP` is bounded (spec/60_exceptions.md R124). -/
theorem faultsAsListed_flushBlock {rest : State → Result}
    (hcap : u.outCap ≠ none → RaisesFault s d .resource ((u.loseData.withErr .resource).withResponse none))
    (hrest : ∀ m bytes, FaultsAsListed d s (rest (u.flushedWith m bytes))) :
    FaultsAsListed d s ((flushBlock u).andThen rest) := by
  obtain ⟨-, f, hr⟩ | ⟨-, -, hr⟩ | ⟨-, hfits, hr⟩ := flushBlock_cases u <;> rw [hr]
  · exact nofun
  · exact hrest _ _
  · exact (hcap (ne_none_of_fitsOut_eq_false hfits)).faultsAsListed

/-- The guard adds ERR_PROTOCOL to the faults of the command's own meaning. -/
theorem faultsAsListed_guarded {i : Instr} {run : State → Result} (herr : s.err = 0)
    (hrun : runsIn i s.phase = true → FaultsAsListed (.command i) s (run s)) :
    FaultsAsListed (.command i) s (guarded i run s) := by
  obtain ⟨hne, -⟩ | ⟨-, hphase, hr⟩ | ⟨-, hphase, hr⟩ := guarded_cases i run s
  · exact absurd herr hne
  · rw [hr]
    exact (RaisesFault.protocol i hphase).faultsAsListed
  · rw [hr]
    exact hrun hphase

theorem faultsAsListed_configure (bs mc : Word) (herr : s.err = 0) (hconf : s.configured = false) :
    FaultsAsListed (.command (.config bs mc)) s (configure bs mc s) := by
  by_cases hvalid : ValidConfig s.maxBlockSize bs.toNat mc.toNat
  · rw [configure_of_valid hvalid]
    exact faultsAsListed_withResponse none herr
  · rw [configure_of_invalid hvalid]
    exact (RaisesFault.config bs mc hconf hvalid).faultsAsListed

theorem faultsAsListed_acceptValue (v : Word) (herr : s.err = 0) (hconf : s.configured = true)
    (hfin : s.finalized = false) : FaultsAsListed (.command (.write v)) s (acceptValue v s) := by
  obtain ⟨hmax, hr⟩ | ⟨-, hr⟩ | ⟨-, hmax, ⟨-, hr⟩ | ⟨-, -, hr⟩ | ⟨-, -, hr⟩⟩ := acceptValue_cases v s <;> rw [hr]
  · exact (RaisesFault.counter v hconf hfin hmax).faultsAsListed
  · exact faultsAsListed_withResponse none herr
  · exact nofun
  · exact faultsAsListed_withResponse none herr
  · exact faultsAsListed_flushBlock (.writeCapacity v hconf hfin hmax) fun _ _ => faultsAsListed_withResponse none herr

theorem faultsAsListed_finishPage (herr : s.err = 0) (hconf : s.configured = true) :
    FaultsAsListed (.command .finish) s (finishPage s) := by
  obtain ⟨-, hr⟩ | ⟨-, -, hr⟩ | ⟨hfin, -, hr⟩ := finishPage_cases s <;> rw [hr]
  · exact faultsAsListed_withResponse _ herr
  · exact faultsAsListed_withResponse _ herr
  · exact faultsAsListed_flushBlock (.finishCapacity hconf hfin) fun _ _ => faultsAsListed_withResponse _ herr

theorem faultsAsListed_exec (i : Instr) (herr : s.err = 0) : FaultsAsListed (.command i) s (exec i s) := by
  cases i with
  | config bs mc =>
    refine faultsAsListed_guarded herr fun hphase => faultsAsListed_configure bs mc herr ?_
    simpa [runsIn_config bs mc s herr] using hphase
  | write v =>
    refine faultsAsListed_guarded herr fun hphase => ?_
    obtain ⟨hconf, hfin⟩ : s.configured = true ∧ s.finalized = false := by simpa [runsIn_write v s herr] using hphase
    exact faultsAsListed_acceptValue v herr hconf hfin
  | finish =>
    refine faultsAsListed_guarded herr fun hphase => faultsAsListed_finishPage herr ?_
    rwa [runsIn_finish s herr] at hphase
  | reset =>
    exact faultsAsListed_guarded (run := fun u => respond u.clearPage) herr fun _ => faultsAsListed_withResponse none herr

theorem faultsAsListed_runWord (w : CommandWord) (herr : s.err = 0) : FaultsAsListed (decode w) s (runWord w s) := by
  obtain ⟨i, hd, hr⟩ | ⟨r, hd, hr⟩ := runWord_cases w s <;> rw [hd, hr]
  · exact faultsAsListed_exec i herr
  · rw [reservedWord_of_err_zero herr]
    exact (RaisesFault.illegal r).faultsAsListed

end

/-! ### What a fault says of its cause, and what it leaves -/

theorem FaultCode.code_injective {c c' : FaultCode} (h : c.code = c'.code) : c = c' := by
  revert h
  cases c <;> cases c' <;> decide

section
variable {d : Decoded} {s t : State} {c : FaultCode}

theorem RaisesFault.err_eq (h : RaisesFault s d c t) : t.err = c.code := by
  cases h <;> rfl

theorem RaisesFault.configured_eq (h : RaisesFault s d c t) : t.configured = s.configured := by
  cases h <;> rfl

theorem RaisesFault.finalized_eq (h : RaisesFault s d c t) : t.finalized = s.finalized := by
  cases h <;> rfl

/-- The fault is known by its code. -/
theorem FaultsAsListed.raisesFault {r : Result} (h : FaultsAsListed d s r) (ht : r = .next t) (hcode : t.err = c.code) :
    RaisesFault s d c t := by
  obtain ⟨c', hc'⟩ := h t ht (hcode ▸ c.code_ne_zero)
  rwa [FaultCode.code_injective (hcode.symm.trans hc'.err_eq)]

theorem RaisesFault.of_illegal (h : RaisesFault s d .illegal t) : ∃ r, d = .reserved r := by
  cases h with
  | illegal r => exact ⟨r, rfl⟩

theorem RaisesFault.of_protocol (h : RaisesFault s d .protocol t) :
    ∃ i, d = .command i ∧ runsIn i s.phase = false := by
  cases h with
  | protocol i hphase => exact ⟨i, rfl, hphase⟩

theorem RaisesFault.of_config (h : RaisesFault s d .config t) :
    ∃ bs mc, d = .command (.config bs mc) ∧ s.configured = false ∧
      ¬ ValidConfig s.maxBlockSize bs.toNat mc.toNat := by
  cases h with
  | config bs mc hconf hbad => exact ⟨bs, mc, rfl, hconf, hbad⟩

theorem RaisesFault.of_resource (h : RaisesFault s d .resource t) :
    s.configured = true ∧ s.finalized = false ∧ ((∃ v, d = .command (.write v)) ∨ d = .command .finish) := by
  cases h with
  | counter v hconf hfin => exact ⟨hconf, hfin, .inl ⟨v, rfl⟩⟩
  | writeCapacity v hconf hfin => exact ⟨hconf, hfin, .inl ⟨v, rfl⟩⟩
  | finishCapacity hconf hfin => exact ⟨hconf, hfin, .inr rfl⟩

/-- An unbounded `output_buffer` leaves the counter as the only cause of ERR_RESOURCE (spec/60_exceptions.md R124). -/
theorem RaisesFault.counter_of_unbounded (h : RaisesFault s d .resource t) (hcap : s.outCap = none) :
    s.totalValueCount = 0xFFFFFFFF#32 := by
  cases h with
  | counter v hconf hfin hmax => exact hmax
  | writeCapacity v hconf hfin hmax hbounded => exact absurd hcap hbounded
  | finishCapacity hconf hfin hbounded => exact absurd hcap hbounded

/-- Every fault but the capacity form writes `err` and answers, and does nothing else (spec/60_exceptions.md R120). -/
theorem RaisesFault.precise (h : RaisesFault s d c t)
    (hform : c ≠ .resource ∨ ∃ v, d = .command (.write v) ∧ s.totalValueCount = 0xFFFFFFFF#32) :
    t = (s.withErr c).withResponse none := by
  cases h with
  | illegal r => rfl
  | protocol i hphase => rfl
  | config bs mc hconf hbad => rfl
  | counter v hconf hfin hmax => rfl
  | writeCapacity v hconf hfin hmax hcap =>
    obtain hne | ⟨_, -, hcount⟩ := hform
    · exact absurd rfl hne
    · exact absurd hcount hmax
  | finishCapacity hconf hfin hcap =>
    obtain hne | ⟨_, hwrite, -⟩ := hform
    · exact absurd rfl hne
    · cases hwrite

end

/-- Settles O14: each clause is read off the list of causes; the response is that of every word without payload. -/
theorem faultsArePrecise : Obligations.FaultsArePrecise := by
  intro s t w hw herr hne
  obtain ⟨c, hfault⟩ := faultsAsListed_runWord w herr t hw hne
  obtain ⟨-, hplain⟩ := responseFormat s t w hw
  obtain ⟨hpay, hrsp⟩ := hplain fun ⟨_, hzero⟩ => hne hzero
  refine ⟨hfault.configured_eq, hfault.finalized_eq, hpay, hrsp, fun hform => ?_⟩
  have hcode : t.err ≠ 2 → c ≠ .resource := by
    rintro hne rfl
    exact hne hfault.err_eq
  rw [hfault.precise (hform.imp_left hcode), State.withResponse_none]
  rfl

/-! ### The order of the faults -/

/-- A fault that leaves the data state, written out field by field. -/
theorem State.withErr_withResponse_none (s : State) (c : FaultCode) :
    (s.withErr c).withResponse none = { s with
      err := c.code
      rspQueue := s.rspQueue ++
        [{ status := 0#3 ++ (BitVec.ofBool s.finalized ++ (BitVec.ofBool s.configured ++ c.code))
           hasPayload := false }] } := by
  rw [State.withResponse_none]
  rfl

theorem exec_write_of_not_opened (v : Word) {s : State} (herr : s.err = 0)
    (h : s.configured = false ∨ s.finalized = true) :
    exec (.write v) s = .next ((s.withErr .protocol).withResponse none) := by
  refine guarded_illegal (acceptValue v) herr ?_
  rw [runsIn_write v s herr]
  obtain hconf | hfin := h
  · rw [hconf, Bool.false_and]
  · rw [hfin, Bool.not_true, Bool.and_false]

/-- The counter is tested before anything of the flush. -/
theorem exec_write_of_countAtEnd (v : Word) {s : State} (herr : s.err = 0) (hconf : s.configured = true)
    (hfin : s.finalized = false) (hmax : s.totalValueCount = 0xFFFFFFFF#32) :
    exec (.write v) s = .next ((s.withErr .resource).withResponse none) := by
  rw [exec_write_of_opened v herr hconf hfin]
  exact if_pos hmax

theorem exec_finish_of_unconfigured {s : State} (herr : s.err = 0) (hconf : s.configured = false) :
    exec .finish s = .next ((s.withErr .protocol).withResponse none) :=
  guarded_illegal finishPage herr (by rw [runsIn_finish s herr, hconf])

/-- The empty cells of R127's table, by the flags. -/
theorem flags_of_not_runsIn {i : Instr} {s : State} (herr : s.err = 0) (h : runsIn i s.phase = false) :
    (∃ bs mc, i = .config bs mc ∧ s.configured = true) ∨
    (∃ v, i = .write v ∧ (s.configured = false ∨ s.finalized = true)) ∨
    ((i = .finish ∨ i = .reset) ∧ s.configured = false) := by
  cases i with
  | config bs mc => exact .inl ⟨bs, mc, rfl, by simpa [runsIn_config bs mc s herr] using h⟩
  | write v =>
    rw [runsIn_write v s herr, Bool.and_eq_false_iff, Bool.not_eq_false'] at h
    exact .inr (.inl ⟨v, rfl, h⟩)
  | finish => exact .inr (.inr ⟨.inl rfl, runsIn_finish s herr ▸ h⟩)
  | reset => exact .inr (.inr ⟨.inr rfl, runsIn_reset s herr ▸ h⟩)

/-- Settles O13: towards the fault each command's own equation, with the guard before its meaning; back from the fault the
list of causes, by the code. -/
theorem faultPriority : Obligations.FaultPriority := by
  intro s w answering
  have hcommand {i : Instr} {c : FaultCode} (hd : decode w = .command i)
      (h : exec i s = .next ((s.withErr c).withResponse none)) : answering c.code := by
    rw [← runWord_of_command s hd, State.withErr_withResponse_none] at h
    exact h
  refine ⟨faultPhaseIgnoresEveryWord s w, fun herr => ⟨fun r hd => ?_,
    fun bs mc hd => ⟨fun hconf => ?_, fun hconf hbad => ?_⟩,
    fun v hd => ⟨fun hclosed => ?_, fun hconf hfin hmax => ?_⟩, ?_, fun t hw => ?_⟩⟩
  · have hr := (runWord_of_reserved s hd).trans (reservedWord_of_err_zero herr)
    rwa [State.withErr_withResponse_none] at hr
  · exact hcommand hd (exec_config_of_configured bs mc herr hconf)
  · exact hcommand hd ((exec_config_of_unconfigured bs mc herr hconf).trans (configure_of_invalid hbad))
  · exact hcommand hd (exec_write_of_not_opened v herr hclosed)
  · exact hcommand hd (exec_write_of_countAtEnd v herr hconf hfin hmax)
  · rintro (hd | hd) hconf
    · exact hcommand hd (exec_finish_of_unconfigured herr hconf)
    · exact hcommand hd (exec_reset_of_unconfigured herr hconf)
  · have hraised {c : FaultCode} (hcode : t.err = c.code) : RaisesFault s (decode w) c t :=
      (faultsAsListed_runWord w herr).raisesFault hw hcode
    refine ⟨fun h => (hraised (c := .illegal) h).of_illegal, fun h => ?_, fun h => (hraised (c := .config) h).of_config,
      fun h => (hraised (c := .resource) h).of_resource⟩
    obtain ⟨i, hd, hphase⟩ := (hraised (c := .protocol) h).of_protocol
    simpa [hd] using flags_of_not_runsIn herr hphase

end Sys2Proof.Machine
end

section
/-! SUPPORT. The capacity fault (spec/60_exceptions.md R124, spec/42_flush_block.md R90): where FLUSH_BLOCK meets a block that
does not fit, and what the WRITE or FINISH that called it then answers. -/

namespace Sys2Proof.Machine

/-! ### A flush that does not fit -/

/-- What FLUSH_BLOCK requires holds in a configured block (spec/40_config.md R71). -/
theorem ConfigInv.flushReady {s : State} (h : ConfigInv s) (hn : s.pendingCount.toNat ≤ s.blockSize.toNat) :
    FlushReady s := by
  refine ⟨h.miniBlockSize_pos.ne', ?_⟩
  rw [← h.count_mul_size]
  exact Nat.mul_le_mul_right _ (h.touched_le hn)

theorem flushBlock_of_not_fits {s : State} (hready : FlushReady s)
    (hfits : fitsOut s.outCap (s.outputBuffer.length + flushLength s) = false) :
    flushBlock s = .exhausted s.loseData := by
  obtain ⟨hnot, -⟩ | ⟨-, hfit, -⟩ | ⟨-, -, hr⟩ := flushBlock_cases s
  · exact absurd hready hnot
  · exact absurd hfit (by simp [hfits])
  · exact hr

/-- What spec/60_exceptions.md R124 states of a capacity fault raised in phase OPEN. -/
def EndsInCapacityFault (s : State) (r : Result) : Prop :=
  ∃ t, r = .next t ∧ t.err = 2 ∧ t.configured = true ∧ t.finalized = false ∧
    t.blockSize = s.blockSize ∧ t.miniBlockCount = s.miniBlockCount ∧ t.miniBlockSize = s.miniBlockSize ∧
    t.payQueue = s.payQueue ∧ t.rspQueue = s.rspQueue ++ [{ status := 0x0A#8, hasPayload := false }]

theorem endsInCapacityFault_flushBlock {s : State} (rest : State → Result) (hconf : s.configured = true)
    (hfin : s.finalized = false) (hinv : ConfigInv s) (hn : s.pendingCount.toNat ≤ s.blockSize.toNat)
    (hfits : fitsOut s.outCap (s.outputBuffer.length + flushLength s) = false) :
    EndsInCapacityFault s ((flushBlock s).andThen rest) := by
  have hstatus : (s.loseData.withErr .resource).status = 0x0A#8 := by simp [State.status, hconf, hfin, FaultCode.code]
  have hnext : (flushBlock s).andThen rest = .next ((s.loseData.withErr .resource).withResponse none) := by
    rw [flushBlock_of_not_fits (hinv.flushReady hn) hfits]
    rfl
  rw [State.withResponse_none, hstatus] at hnext
  exact ⟨_, hnext, rfl, hconf, hfin, rfl, rfl, rfl, rfl, rfl⟩

/-! ### The commands that flush -/

/-- In an open page with pending deltas FINISH flushes them before it closes the page (spec/45_finish_reset.md R106). -/
theorem exec_finish_of_pending {s : State} (herr : s.err = 0) (hconf : s.configured = true) (hfin : s.finalized = false)
    (hpending : s.pendingCount ≠ 0) : exec .finish s = (flushBlock s).andThen closePage := by
  have hrun : exec .finish s = finishPage s := guarded_run finishPage herr (by rw [runsIn_finish s herr, hconf])
  rw [hrun, finishPage, if_neg (by simp [hfin]), if_pos hpending]

theorem ConfigInv.recordDelta {s : State} (h : ConfigInv s) (v : Word) : ConfigInv (s.recordDelta v) :=
  ⟨h.valid, h.countFits, h.quotient⟩

/-- PD after step 1 of the flush in a WRITE that fills the block: every slot has lost the minimum, the new delta too. -/
theorem read_flushMemory_recordDelta {s : State} (v : Word)
    (hfull : (s.recordDelta v).pendingCount = s.blockSize) {j : Nat} (hj : j < s.blockSize.toNat) :
    (flushMemory (s.recordDelta v)).read j =
      (if j = s.pendingCount.toNat then delta s v else s.pd.read j) - smin s.minDelta (delta s v) := by
  rw [Memory.read_subtractMin, hfull, if_pos hj, State.recordDelta_pd, Memory.read_write, State.recordDelta_minDelta]

/-! ### The obligation -/

/-- Settles O26: an unbounded buffer rules out the capacity causes; a block that does not fit makes the flush of a filling
WRITE, or of a FINISH, fault, since the memory and the minimum it flushes are among those the hypothesis speaks of. -/
theorem capacityFaultFlags : Obligations.CapacityFaultFlags := by
  constructor
  · intro s i t herr ht hcap hres
    have hraised : RaisesFault s (.command i) .resource t := (faultsAsListed_exec i herr).raisesFault ht hres
    exact hraised.counter_of_unbounded hcap
  · intro s herr hconf hfin hinv faulted
    refine ⟨fun v hzero hmax hlast hnofit => ?_, fun hpending hbound hnofit => ?_⟩
    · have hslot : s.pendingCount.toNat < s.blockSize.toNat := by omega
      have hfull : (s.recordDelta v).pendingCount = s.blockSize := (pendingCount_recordDelta_eq_iff v hslot).mpr hlast
      have hfits : fitsOut s.outCap (s.outputBuffer.length + flushLength (s.recordDelta v)) = false := by
        rw [flushLength, hfull]
        exact hnofit _ _ (smin_toInt _ _) fun j => read_flushMemory_recordDelta v hfull
      rw [exec_write_of_opened v herr hconf hfin, acceptValue_later v hzero hmax hslot, closeBlock_of_eq hfull]
      exact endsInCapacityFault_flushBlock (s := s.recordDelta v) respond hconf hfin (hinv.recordDelta v)
        (congrArg BitVec.toNat hfull).le hfits
    · rw [exec_finish_of_pending herr hconf hfin hpending]
      exact endsInCapacityFault_flushBlock closePage hconf hfin hinv hbound
        (hnofit _ fun j _ => Memory.read_subtractMin _ _ _ j)

end Sys2Proof.Machine
end

section
/-! SUPPORT. Encoder and decoder (spec/30_encoding.md R55 to R58) are inverse to each other, and the pseudo-instructions
(R68) stand for WRITE lines. -/

namespace Sys2Proof.Machine

open Sys2Proof.Laws

/-! ### Decode of encode -/

/-- CONFIG's count goes through the 24 bits of `b` and back (R56). -/
theorem setWidth_setWidth_of_lt {mc : Word} (h : mc.toNat < 2 ^ 24) : (mc.setWidth 24).setWidth 32 = mc := by
  bv_omega

theorem setWidth_lt (b : BitVec 24) : (b.setWidth 32 : Word).toNat < 2 ^ 24 := by
  bv_omega

/-- Settles O2: each word has the fields that its row of R57 tests and reads. -/
theorem decodeInvertsEncode : Obligations.DecodeInvertsEncode := by
  intro i hwf
  cases i with
  | config bs mc =>
    have hmc : mc.toNat < 2 ^ 24 := by simpa [Instr.wellFormed] using hwf
    rw [decode_config (OpcodeByte.config bs mc), encode, blockSizeOperand, aField_assembleWord, miniBlockCountOperand,
      bField_assembleWord, setWidth_setWidth_of_lt hmc]
  | write v =>
    rw [decode_write (OpcodeByte.write v) (bField_assembleWord _ _ _), encode, valueOperand, aField_assembleWord]
  | finish =>
    exact decode_finish OpcodeByte.finish (bField_assembleWord _ _ _) (aField_assembleWord _ _ _)
  | reset => exact decode_reset OpcodeByte.reset (bField_assembleWord _ _ _) (aField_assembleWord _ _ _)

/-! ### Encode of decode -/

/-- What the fields of a word are when it decodes to a command (R57). -/
theorem fields_of_decode {w : CommandWord} {i : Instr} (h : decode w = .command i) :
    (opField w = 1 ∧ i = .config (blockSizeOperand w) (miniBlockCountOperand w)) ∨
    (opField w = 2 ∧ bField w = 0 ∧ i = .write (valueOperand w)) ∨
    (opField w = 3 ∧ bField w = 0 ∧ aField w = 0 ∧ i = .finish) ∨
    (opField w = 4 ∧ bField w = 0 ∧ aField w = 0 ∧ i = .reset) := by
  by_cases hconfig : opField w = 1
  · exact .inl ⟨hconfig, Decoded.command.inj (h.symm.trans (decode_config hconfig))⟩
  by_cases hwrite : opField w = 2 ∧ bField w = 0
  · obtain ⟨hop, hb⟩ := hwrite
    exact .inr (.inl ⟨hop, hb, Decoded.command.inj (h.symm.trans (decode_write hop hb))⟩)
  by_cases hfinish : opField w = 3 ∧ bField w = 0 ∧ aField w = 0
  · obtain ⟨hop, hb, ha⟩ := hfinish
    exact .inr (.inr (.inl ⟨hop, hb, ha, Decoded.command.inj (h.symm.trans (decode_finish hop hb ha))⟩))
  by_cases hreset : opField w = 4 ∧ bField w = 0 ∧ aField w = 0
  · obtain ⟨hop, hb, ha⟩ := hreset
    exact .inr (.inr (.inr ⟨hop, hb, ha, Decoded.command.inj (h.symm.trans (decode_reset hop hb ha))⟩))
  obtain ⟨r, hr⟩ := decode_reserved (reservedFields_of_no_row hconfig hwrite hfinish hreset)
  cases h.symm.trans hr

/-- Settles O3: the row that the word meets leaves no bit of it free but its operands, and `b` has 24 bits. -/
theorem encodeInvertsDecode : Obligations.EncodeInvertsDecode := by
  intro w i h
  obtain ⟨hop, rfl⟩ | ⟨hop, hb, rfl⟩ | ⟨hop, hb, ha, rfl⟩ | ⟨hop, hb, ha, rfl⟩ := fields_of_decode h
  · have hcount : (miniBlockCountOperand w).setWidth 24 = bField w := by
      unfold miniBlockCountOperand
      bv_omega
    refine ⟨decide_eq_true (setWidth_lt (bField w)), ?_⟩
    rw [encode, hcount]
    exact ((eq_assembleWord_iff w _ _ _).mpr ⟨hop, rfl, rfl⟩).symm
  · exact ⟨rfl, ((eq_assembleWord_iff w _ _ _).mpr ⟨hop, hb, rfl⟩).symm⟩
  · exact ⟨rfl, ((eq_assembleWord_iff w _ _ _).mpr ⟨hop, hb, ha⟩).symm⟩
  · exact ⟨rfl, ((eq_assembleWord_iff w _ _ _).mpr ⟨hop, hb, ha⟩).symm⟩

/-- Every decoded command is well formed: the invariant rests on this for CONFIG's count. -/
theorem wellFormed_of_decode {w : CommandWord} {i : Instr} (h : decode w = .command i) : i.wellFormed = true :=
  (encodeInvertsDecode w i h).1

/-- Settles O4: nine closed words, which the decoder evaluates. -/
theorem sampleWordsDecode : Obligations.SampleWordsDecode := by
  unfold Obligations.SampleWordsDecode
  decide

/-! ### The pseudo-instructions -/

theorem assemble_write (v : Int) : assemble (.write v) = (assembleWrite v).map fun w => [w] := rfl

/-- Single lines, one word each, joined again are the words. -/
theorem mapM_singleton_flatten {α β : Type} (f : α → Option β) (xs : List α) :
    (xs.mapM fun x => (f x).map fun y => [y]).map List.flatten = xs.mapM f := by
  induction xs with
  | nil => rfl
  | cons x xs ih =>
    simp only [List.mapM_cons, Option.pure_def, Option.bind_eq_bind]
    rw [← ih]
    cases f x with
    | none => rfl
    | some y =>
      cases xs.mapM fun x => (f x).map fun y => [y] with
      | none => rfl
      | some ys => rfl

theorem word32_emod (x : Int) : word32 (x % 2 ^ 32) = word32 x := by
  apply BitVec.eq_of_toInt_eq
  rw [word32, word32, BitVec.toInt_ofInt, BitVec.toInt_ofInt]
  exact Int.emod_bmod x (2 ^ 32)

/-- WRITEN's value is in the range of a WRITE line once it is reduced modulo 2^32. -/
theorem assembleWrite_emod (x : Int) : assembleWrite (x % 2 ^ 32) = some (encode (.write (word32 x))) := by
  have hlo : 0 ≤ x % 2 ^ 32 := Int.emod_nonneg x (by decide)
  have hhi : x % 2 ^ 32 < 2 ^ 32 := Int.emod_lt_of_pos x (by decide)
  rw [assembleWrite, if_pos (by omega), word32_emod]

/-- Settles O5: a WRITE line has one word, so the lines joined are the words of the pseudo-instruction. -/
theorem pseudoInstructionsExpand : Obligations.PseudoInstructionsExpand := by
  refine ⟨fun vs hvs => ?_, fun count start step => ?_⟩
  · simp only [assemble_write, mapM_singleton_flatten]
    exact if_neg hvs
  · simp only [assemble_write, mapM_singleton_flatten, assembleWrite_emod]
    rw [assemble, if_pos (Int.natCast_nonneg count), Int.toNat_natCast]
    exact (List.mapM_pure (m := Option)).symm

end Sys2Proof.Machine
end

section
/-! SUPPORT. How a command ends without a fault: the ways are listed once, each with the state it reaches, beside the
list of faults `RaisesFault`. What a command keeps, and what it does in a given state, is then read off the two
lists. -/

namespace Sys2Proof.Machine

/-! ### The flush run to its end -/

/-- The state after a FLUSH_BLOCK that ran to its end (spec/42_flush_block.md R89, R91). -/
abbrev State.afterFlush (s : State) : State := s.flushedWith (flushMemory s) (flushBytes s)

/-- The capacity test of spec/42_flush_block.md R90. -/
abbrev FlushFits (s : State) : Prop := fitsOut s.outCap (s.outputBuffer.length + flushLength s) = true

theorem flushBlock_of_fits {s : State} (hready : FlushReady s) (hfits : FlushFits s) :
    flushBlock s = .flushed s.afterFlush := by
  obtain ⟨hnot, -⟩ | ⟨-, -, hr⟩ | ⟨-, hno, -⟩ := flushBlock_cases s
  · exact absurd hready hnot
  · exact hr
  · exact absurd (hno.symm.trans hfits) (by decide)

/-! ### The list -/

/-- From `s`, without a fault recorded, the command completes and has brought the block to the given state when it
answers: one constructor per way through the pseudocode of spec/40_config.md R69, spec/41_write.md R73 and
spec/45_finish_reset.md R106, R110. -/
inductive Completes (s : State) : Instr → State → Prop where
  | config (bs mc : Word) (hconf : s.configured = false) (hvalid : ValidConfig s.maxBlockSize bs.toNat mc.toNat) :
    Completes s (.config bs mc) (s.withConfig bs mc).clearPage
  | first (v : Word) (hconf : s.configured = true) (hfin : s.finalized = false) (hzero : s.totalValueCount = 0) :
    Completes s (.write v) (s.recordFirst v)
  | record (v : Word) (hconf : s.configured = true) (hfin : s.finalized = false) (hzero : s.totalValueCount ≠ 0)
    (hmax : s.totalValueCount ≠ 0xFFFFFFFF#32) (hroom : s.pendingCount.toNat + 1 < s.blockSize.toNat) :
    Completes s (.write v) (s.recordDelta v)
  | fill (v : Word) (hconf : s.configured = true) (hfin : s.finalized = false) (hzero : s.totalValueCount ≠ 0)
    (hmax : s.totalValueCount ≠ 0xFFFFFFFF#32) (hfull : s.pendingCount.toNat + 1 = s.blockSize.toNat)
    (hready : FlushReady (s.recordDelta v)) (hfits : FlushFits (s.recordDelta v)) :
    Completes s (.write v) (s.recordDelta v).afterFlush
  | replay (hconf : s.configured = true) (hfin : s.finalized = true) : Completes s .finish s
  | close (hconf : s.configured = true) (hfin : s.finalized = false) (hnone : s.pendingCount = 0) :
    Completes s .finish s.withFinalized
  | flushClose (hconf : s.configured = true) (hfin : s.finalized = false) (hpending : s.pendingCount ≠ 0)
    (hready : FlushReady s) (hfits : FlushFits s) : Completes s .finish s.afterFlush.withFinalized
  | reset (hconf : s.configured = true) : Completes s .reset s.clearPage

/-- Where `r` answers a next state without a fault recorded, the command has completed in a way of the list. -/
def CompletesAsListed (i : Instr) (s : State) (r : Result) : Prop :=
  ∀ t, r = .next t → t.err = 0 → ∃ u, Completes s i u ∧ t = u.withResponse (answer (.command i) u)

section
variable {i : Instr} {s u : State} {p : Option (List Byte)}

theorem Completes.completesAsListed (h : Completes s i u) (hp : answer (.command i) u = p) :
    CompletesAsListed i s (.next (u.withResponse p)) := by
  rintro _ ⟨⟩ -
  exact ⟨u, h, by rw [hp]⟩

theorem completesAsListed_raise (c : FaultCode) : CompletesAsListed i s (raise c u) := by
  rintro _ ⟨⟩ hzero
  exact absurd hzero c.code_ne_zero

/-- Of a flush only the one that fits lets the command complete. -/
theorem completesAsListed_flushBlock {rest : State → Result}
    (hrest : FlushReady u → FlushFits u → CompletesAsListed i s (rest u.afterFlush)) :
    CompletesAsListed i s ((flushBlock u).andThen rest) := by
  obtain ⟨-, f, hr⟩ | ⟨hready, hfits, hr⟩ | ⟨-, -, hr⟩ := flushBlock_cases u <;> rw [hr]
  · exact nofun
  · exact hrest hready hfits
  · exact completesAsListed_raise .resource

theorem completesAsListed_guarded {run : State → Result} (herr : s.err = 0)
    (hrun : runsIn i s.phase = true → CompletesAsListed i s (run s)) : CompletesAsListed i s (guarded i run s) := by
  obtain ⟨hne, -⟩ | ⟨-, -, hr⟩ | ⟨-, hphase, hr⟩ := guarded_cases i run s
  · exact absurd herr hne
  · rw [hr]
    exact completesAsListed_raise .protocol
  · rw [hr]
    exact hrun hphase

theorem completesAsListed_configure (bs mc : Word) (hconf : s.configured = false) :
    CompletesAsListed (.config bs mc) s (configure bs mc s) := by
  by_cases hvalid : ValidConfig s.maxBlockSize bs.toNat mc.toNat
  · rw [configure_of_valid hvalid]
    exact (Completes.config bs mc hconf hvalid).completesAsListed (answer_of_ne_finish (by nofun) _)
  · rw [configure_of_invalid hvalid]
    exact completesAsListed_raise .config

theorem completesAsListed_acceptValue (v : Word) (hconf : s.configured = true) (hfin : s.finalized = false) :
    CompletesAsListed (.write v) s (acceptValue v s) := by
  have hans (u : State) : answer (.command (.write v)) u = none := answer_of_ne_finish (by nofun) u
  obtain ⟨-, hr⟩ | ⟨hzero, hr⟩ | ⟨hzero, hmax, ⟨-, hr⟩ | ⟨hslot, hne, hr⟩ | ⟨hslot, heq, hr⟩⟩ :=
    acceptValue_cases v s <;> rw [hr]
  · exact completesAsListed_raise .resource
  · exact (Completes.first v hconf hfin hzero).completesAsListed (hans _)
  · exact nofun
  · have hroom : s.pendingCount.toNat + 1 ≠ s.blockSize.toNat := mt (pendingCount_recordDelta_eq_iff v hslot).mpr hne
    exact (Completes.record v hconf hfin hzero hmax (by omega)).completesAsListed (hans _)
  · have hfull := (pendingCount_recordDelta_eq_iff v hslot).mp heq
    exact completesAsListed_flushBlock fun hready hfits =>
      (Completes.fill v hconf hfin hzero hmax hfull hready hfits).completesAsListed (hans _)

theorem completesAsListed_finishPage (herr : s.err = 0) (hconf : s.configured = true) :
    CompletesAsListed .finish s (finishPage s) := by
  obtain ⟨hfin, hr⟩ | ⟨hfin, hnone, hr⟩ | ⟨hfin, hpending, hr⟩ := finishPage_cases s <;> rw [hr]
  · exact (Completes.replay hconf hfin).completesAsListed (answer_finish herr)
  · exact (Completes.close hconf hfin hnone).completesAsListed (answer_finish herr)
  · exact completesAsListed_flushBlock fun hready hfits =>
      (Completes.flushClose hconf hfin hpending hready hfits).completesAsListed (answer_finish herr)

theorem completesAsListed_exec (i : Instr) (herr : s.err = 0) : CompletesAsListed i s (exec i s) := by
  cases i with
  | config bs mc =>
    refine completesAsListed_guarded herr fun hphase => completesAsListed_configure bs mc ?_
    simpa [runsIn_config bs mc s herr] using hphase
  | write v =>
    refine completesAsListed_guarded herr fun hphase => ?_
    obtain ⟨hconf, hfin⟩ : s.configured = true ∧ s.finalized = false := by simpa [runsIn_write v s herr] using hphase
    exact completesAsListed_acceptValue v hconf hfin
  | finish =>
    refine completesAsListed_guarded herr fun hphase => completesAsListed_finishPage herr ?_
    rwa [runsIn_finish s herr] at hphase
  | reset =>
    refine completesAsListed_guarded (run := fun u => respond u.clearPage) herr fun hphase => ?_
    rw [runsIn_reset s herr] at hphase
    exact (Completes.reset hphase).completesAsListed (answer_of_ne_finish (by nofun) _)

end

/-! ### What the list says of a command -/

/-- Every answer of a command: ignored, a fault of the list of faults, or completed. -/
theorem exec_next {i : Instr} {s t : State} (h : exec i s = .next t) :
    (s.err ≠ 0 ∧ t = s.withResponse none) ∨ (s.err = 0 ∧ ∃ c, RaisesFault s (.command i) c t) ∨
    (s.err = 0 ∧ ∃ u, Completes s i u ∧ t = u.withResponse (answer (.command i) u)) := by
  by_cases herr : s.err = 0
  · by_cases ht : t.err = 0
    · exact .inr (.inr ⟨herr, completesAsListed_exec i herr t h ht⟩)
    · exact .inr (.inl ⟨herr, faultsAsListed_exec i herr t h ht⟩)
  · rw [exec_of_err i herr] at h
    exact .inl ⟨herr, (Host.Outcome.next.inj h).symm⟩

theorem exec_finish_of_configured {s : State} (herr : s.err = 0) (hconf : s.configured = true) :
    exec .finish s = finishPage s :=
  guarded_run finishPage herr (by rw [runsIn_finish s herr, hconf])

/-- A command of the list answers the state of the list. -/
theorem Completes.exec_eq {i : Instr} {s u : State} (herr : s.err = 0) (h : Completes s i u) :
    exec i s = .next (u.withResponse (answer (.command i) u)) := by
  cases h with
  | config bs mc hconf hvalid =>
    rw [exec_config_of_unconfigured bs mc herr hconf, configure_of_valid hvalid, answer_of_ne_finish (by nofun)]
  | first v hconf hfin hzero =>
    rw [exec_write_of_opened v herr hconf hfin, acceptValue_first v hzero, answer_of_ne_finish (by nofun), respond]
  | record v hconf hfin hzero hmax hroom =>
    have hslot : s.pendingCount.toNat < s.blockSize.toNat := by omega
    have hne := mt (pendingCount_recordDelta_eq_iff v hslot).mp (by omega)
    rw [exec_write_of_opened v herr hconf hfin, acceptValue_later v hzero hmax hslot, closeBlock_of_ne hne,
      answer_of_ne_finish (by nofun), respond]
  | fill v hconf hfin hzero hmax hfull hready hfits =>
    have hslot : s.pendingCount.toNat < s.blockSize.toNat := by omega
    rw [exec_write_of_opened v herr hconf hfin, acceptValue_later v hzero hmax hslot,
      closeBlock_of_eq ((pendingCount_recordDelta_eq_iff v hslot).mpr hfull), flushBlock_of_fits hready hfits,
      answer_of_ne_finish (by nofun)]
    rfl
  | replay hconf hfin => rw [exec_finish_of_finalized herr hconf hfin, answer_finish herr]
  | close hconf hfin hnone =>
    rw [exec_finish_of_configured herr hconf, finishPage, if_neg (by simp [hfin]), if_neg (not_not_intro hnone),
      answer_finish (u := s.withFinalized) herr]
    rfl
  | flushClose hconf hfin hpending hready hfits =>
    rw [exec_finish_of_pending herr hconf hfin hpending, flushBlock_of_fits hready hfits,
      answer_finish (u := s.afterFlush.withFinalized) herr]
    rfl
  | reset hconf => rw [exec_reset_of_configured herr hconf, answer_of_ne_finish (by nofun)]

theorem Completes.err_eq {i : Instr} {s u : State} (h : Completes s i u) : u.err = s.err := by
  cases h <;> rfl

/-- A command that leaves `err` as it was has been ignored or has completed. -/
theorem exec_next_of_err_eq {i : Instr} {s t : State} (h : exec i s = .next t) (ht : t.err = s.err) :
    t = s.withResponse none ∨ ∃ u, Completes s i u ∧ t = u.withResponse (answer (.command i) u) := by
  obtain ⟨-, hr⟩ | ⟨herr, c, hfault⟩ | ⟨-, hcomp⟩ := exec_next h
  · exact .inl hr
  · rw [hfault.err_eq, herr] at ht
    exact absurd ht c.code_ne_zero
  · exact .inr hcomp

end Sys2Proof.Machine
end

section
/-! SUPPORT. What a step and a word can do, said once: a step hands over beats, resets, or runs a word, and all but the
channels is the same after a step that does neither of the last two. -/

namespace Sys2Proof.Machine

/-! ### States that differ in the channels alone -/

/-- `t` is `s` but for the beats, taken or not, and what the host does next. -/
def OnlyChannels (s t : State) : Prop :=
  t = { s with
    rspQueue := t.rspQueue, payQueue := t.payQueue, rspTaken := t.rspTaken, payTaken := t.payTaken, inputs := t.inputs }

theorem onlyChannels_withResponse (s : State) (p : Option (List Byte)) : OnlyChannels s (s.withResponse p) := rfl

theorem onlyChannels_transfer (s : State) : OnlyChannels s s.transfer := by
  obtain ⟨r, rs, -, hr⟩ | ⟨p, ps, -, -, hr⟩ | ⟨-, -, hr⟩ := transfer_cases s <;> rw [hr] <;> rfl

/-! ### The step -/

/-- The host takes beats; none that it has taken changes (log 8). -/
structure HandsOver (s t : State) : Prop where
  only : OnlyChannels s t
  rspTaken : s.rspTaken <+: t.rspTaken
  payTaken : s.payTaken <+: t.payTaken

theorem handsOver_refl (s : State) : HandsOver s s := ⟨rfl, List.prefix_refl _, List.prefix_refl _⟩

theorem handsOver_transfer (s : State) : HandsOver s s.transfer := by
  have honly := onlyChannels_transfer s
  obtain ⟨r, rs, -, hr⟩ | ⟨p, ps, -, -, hr⟩ | ⟨-, -, hr⟩ := transfer_cases s
  · exact ⟨honly, hr ▸ List.prefix_append _ _, hr ▸ List.prefix_refl _⟩
  · exact ⟨honly, hr ▸ List.prefix_refl _, hr ▸ List.prefix_append _ _⟩
  · rw [hr]
    exact handsOver_refl s

theorem HandsOver.of_inputs {s t : State} {rest : List HostInput} (h : HandsOver { s with inputs := rest } t) :
    HandsOver s t := ⟨h.only, h.rspTaken, h.payTaken⟩

/-- Every next state of a step: beats handed over, a hard reset, or an accepted word run. -/
theorem step_next {s t : State} (h : step s = .next t) :
    HandsOver s t ∨
    (∃ rest, s.inputs = .hardReset :: rest ∧ t = ({ s with inputs := rest } : State).hardReset) ∨
    (∃ w rest, s.inputs = .command w :: rest ∧ runWord w { s with inputs := rest } = .next t) := by
  obtain ⟨-, hr⟩ | ⟨rest, -, hr⟩ | ⟨rest, hin, hr⟩ | ⟨w, rest, hin, ⟨-, hr⟩ | ⟨-, hr⟩⟩ := step_cases s
  · obtain ⟨⟩ := hr.symm.trans h
    exact .inl (handsOver_refl s)
  · obtain ⟨⟩ := hr.symm.trans h
    exact .inl (handsOver_transfer { s with inputs := rest }).of_inputs
  · obtain ⟨⟩ := hr.symm.trans h
    exact .inr (.inl ⟨rest, hin, rfl⟩)
  · obtain ⟨⟩ := hr.symm.trans h
    exact .inl (handsOver_transfer s)
  · exact .inr (.inr ⟨w, rest, hin, hr.symm.trans h⟩)

/-! ### The word -/

/-- Every answer to a word: ignored, a fault of the list of faults, or a command that completed. -/
theorem runWord_next {w : CommandWord} {s t : State} (h : runWord w s = .next t) :
    (s.err ≠ 0 ∧ t = s.withResponse none) ∨ (s.err = 0 ∧ ∃ c, RaisesFault s (decode w) c t) ∨
    (s.err = 0 ∧ ∃ i u, decode w = .command i ∧ Completes s i u ∧ t = u.withResponse (answer (.command i) u)) := by
  obtain ⟨i, hd, hr⟩ | ⟨r, hd, hr⟩ := runWord_cases w s <;> rw [hr] at h
  · obtain hign | ⟨herr, hfault⟩ | ⟨herr, u, hcomp, ht⟩ := exec_next h
    · exact .inl hign
    · exact .inr (.inl ⟨herr, by rwa [hd]⟩)
    · exact .inr (.inr ⟨herr, i, u, hd, hcomp, ht⟩)
  · by_cases herr : s.err = 0
    · rw [reservedWord_of_err_zero herr] at h
      obtain ⟨⟩ := h
      exact .inr (.inl ⟨herr, .illegal, by rw [hd]; exact .illegal r⟩)
    · rw [reservedWord_of_err herr] at h
      exact .inl ⟨herr, (Host.Outcome.next.inj h).symm⟩

end Sys2Proof.Machine
end

section
/-! SUPPORT. What a step leaves unchanged and what hard reset sets (spec/00_scope.md R8, spec/10_state.md R14,
spec/30_encoding.md R67, spec/70_reset_and_hazards.md R133). -/

namespace Sys2Proof.Machine

/-! ### A step at a word -/

/-- Settles O6: with no beat waiting the word is accepted, and it decodes to the command. -/
theorem stepRunsDecodedInstr : Obligations.StepRunsDecodedInstr := by
  intro s w rest i hin hrsp hpay hd
  rw [step_eq_runWord hin hrsp hpay, runWord_of_command _ hd]

/-- While a beat waits, a step at a word hands over a beat. -/
theorem step_of_not_drained {s : State} {w : CommandWord} {rest : List HostInput} (hin : s.inputs = .command w :: rest)
    (hwait : s.drained = false) : step s = .next s.transfer := by
  simp [step, hin, hwait]

/-- Settles O7: while a beat waits the word is not accepted; the oldest beat of the response goes first. -/
theorem stepHoldsWordUntilTaken : Obligations.StepHoldsWordUntilTaken := by
  intro s w rest hin
  refine ⟨fun r rs hrsp => ?_, fun p ps hrsp hpay => ?_⟩
  · have hwait : s.drained = false := by simp [State.drained, hrsp]
    rw [step_of_not_drained hin hwait, State.transfer, hrsp]
  · have hwait : s.drained = false := by simp [State.drained, hpay]
    rw [step_of_not_drained hin hwait, State.transfer, hrsp, hpay]

/-! ### What a word leaves unchanged -/

section
variable {s t u : State} {d : Decoded} {c : FaultCode} {i : Instr}

/-- What no accepted word changes: the parameters and the beats that the host has taken. -/
structure KeepsInstance (s t : State) : Prop where
  extraSlots : t.extraSlots = s.extraSlots
  outCap : t.outCap = s.outCap
  rspTaken : t.rspTaken = s.rspTaken
  payTaken : t.payTaken = s.payTaken

theorem RaisesFault.keepsInstance (h : RaisesFault s d c t) : KeepsInstance s t := by
  cases h <;> exact ⟨rfl, rfl, rfl, rfl⟩

theorem Completes.keepsInstance (h : Completes s i u) (p : Option (List Byte)) :
    KeepsInstance s (u.withResponse p) := by
  cases h <;> exact ⟨rfl, rfl, rfl, rfl⟩

theorem keepsInstance_of_runWord {w : CommandWord} (h : runWord w s = .next t) : KeepsInstance s t := by
  obtain ⟨-, rfl⟩ | ⟨-, c, hfault⟩ | ⟨-, i, u, -, hcomp, rfl⟩ := runWord_next h
  · exact ⟨rfl, rfl, rfl, rfl⟩
  · exact hfault.keepsInstance
  · exact hcomp.keepsInstance _

/-- The configuration registers. -/
structure SameConfig (s t : State) : Prop where
  blockSize : t.blockSize = s.blockSize
  miniBlockCount : t.miniBlockCount = s.miniBlockCount
  miniBlockSize : t.miniBlockSize = s.miniBlockSize

theorem RaisesFault.sameConfig (h : RaisesFault s d c t) : SameConfig s t := by
  cases h <;> exact ⟨rfl, rfl, rfl⟩

/-- A command that completes writes the configuration registers only if it is CONFIG. -/
theorem Completes.sameConfig (h : Completes s i u) : SameConfig s u ∨
    ∃ bs mc, i = .config bs mc ∧ s.configured = false ∧ ValidConfig s.maxBlockSize bs.toNat mc.toNat ∧
      u = (s.withConfig bs mc).clearPage := by
  cases h with
  | config bs mc hconf hvalid => exact .inr ⟨bs, mc, rfl, hconf, hvalid, rfl⟩
  | _ => exact .inl ⟨rfl, rfl, rfl⟩

theorem Completes.configured_of_configured (h : Completes s i u) (hs : s.configured = true) : u.configured = true := by
  cases h with
  | config bs mc hconf hvalid => rfl
  | _ => exact hs

end

/-! ### The obligations -/

/-- Settles O8: a beat handed over is added to the record, and neither a word nor a hard reset touches the record. -/
theorem takenBeatsNeverChange : Obligations.TakenBeatsNeverChange := by
  intro s t h
  obtain hands | ⟨rest, -, rfl⟩ | ⟨w, rest, -, hw⟩ := step_next h
  · exact ⟨hands.rspTaken, hands.payTaken⟩
  · exact ⟨List.prefix_refl _, List.prefix_refl _⟩
  · have hkeeps := keepsInstance_of_runWord hw
    rw [hkeeps.rspTaken, hkeeps.payTaken]
    exact ⟨List.prefix_refl _, List.prefix_refl _⟩

/-- Settles O17: no way of a step touches the parameters. -/
theorem parametersNeverChange : Obligations.ParametersNeverChange := by
  intro s t h
  obtain hands | ⟨rest, -, rfl⟩ | ⟨w, rest, -, hw⟩ := step_next h
  · rw [hands.only]
    exact ⟨rfl, rfl⟩
  · exact ⟨rfl, rfl⟩
  · have hkeeps := keepsInstance_of_runWord hw
    exact ⟨hkeeps.extraSlots, hkeeps.outCap⟩

/-- Settles O18: of the ways of a word only a CONFIG that completes writes them, and it completes in phase
UNCONFIGURED. -/
theorem onlyConfigWritesConfiguration : Obligations.OnlyConfigWritesConfiguration := by
  intro s t h
  obtain hands | ⟨rest, hin, -⟩ | ⟨w, rest, hin, hw⟩ := step_next h
  · rw [hands.only]
    exact .inl ⟨rfl, rfl, rfl⟩
  · exact .inr (.inl (by rw [hin, List.head?_cons]))
  · obtain ⟨-, rfl⟩ | ⟨-, c, hfault⟩ | ⟨herr, i, u, hd, hcomp, rfl⟩ := runWord_next hw
    · exact .inl ⟨rfl, rfl, rfl⟩
    · obtain ⟨hbs, hmc, hmbs⟩ := hfault.sameConfig
      exact .inl ⟨hbs, hmc, hmbs⟩
    · obtain ⟨hbs, hmc, hmbs⟩ | ⟨bs, mc, rfl, hconf, hvalid, rfl⟩ := hcomp.sameConfig
      · exact .inl ⟨hbs, hmc, hmbs⟩
      · exact .inr (.inr ⟨w, bs, mc, by rw [hin, List.head?_cons], hd, (phase_eq_unconfigured s).mpr ⟨herr, hconf⟩,
          hvalid, rfl, rfl, (phase_eq_opened _).mpr ⟨herr, rfl, rfl⟩⟩)

/-- Settles O16: the values are those of `State.hardReset`; a word in phase FAULT is ignored, and neither a fault nor a
command that completes clears `configured`. -/
theorem hardResetValues : Obligations.HardResetValues := by
  refine ⟨fun s rest hin => ⟨({ s with inputs := rest } : State).hardReset, by simp [step, hin],
    (phase_eq_unconfigured _).mpr ⟨rfl, rfl⟩, rfl, rfl, rfl, rfl, rfl, rfl, rfl, rfl, rfl, rfl, rfl, rfl, rfl, rfl, rfl,
      rfl⟩,
    fun s t h hhead => ⟨fun herr => ?_, fun hconf => ?_⟩⟩
  · obtain heq | ⟨hreset, -⟩ := onlyHardResetLeavesFault s t h herr
    · rwa [heq]
    · exact absurd hreset hhead
  · obtain hands | ⟨rest, hin, -⟩ | ⟨w, rest, -, hw⟩ := step_next h
    · rw [hands.only]
      exact hconf
    · exact absurd (by rw [hin, List.head?_cons]) hhead
    · obtain ⟨-, rfl⟩ | ⟨-, c, hfault⟩ | ⟨-, i, u, -, hcomp, rfl⟩ := runWord_next hw
      · exact hconf
      · exact hfault.configured_eq.trans hconf
      · exact hcomp.configured_of_configured hconf

end Sys2Proof.Machine
end

section
/-! SUPPORT. The invariant (spec/10_state.md R21): hard reset sets it up, and every fault and every completing command
keep it, so every step does. -/

namespace Sys2Proof.Machine

/-! ### What a valid configuration implies -/

section
variable {s : State}

theorem ConfigInv.blockSize_pos (h : ConfigInv s) : 0 < s.blockSize.toNat := h.valid.1

theorem ConfigInv.eight_dvd_miniBlockSize (h : ConfigInv s) : s.miniBlockSize.toNat % 8 = 0 := by
  obtain ⟨-, -, -, -, -, height⟩ := h.valid
  rwa [h.quotient]

theorem ConfigInv.eight_le_miniBlockSize (h : ConfigInv s) : 8 ≤ s.miniBlockSize.toNat := by
  have hpos := h.miniBlockSize_pos
  have height := h.eight_dvd_miniBlockSize
  omega

/-- Settles O20: the quotient is exact, and a positive multiple of 8 is at least 8. -/
theorem configQuotientExact : Obligations.ConfigQuotientExact := by
  intro s h
  obtain ⟨-, -, -, hmc, -, -⟩ := h.valid
  refine ⟨h.count_mul_size, h.eight_dvd_miniBlockSize, h.eight_le_miniBlockSize, ?_, hmc, ?_⟩
  · rw [h.quotient]
    exact Nat.div_le_self _ _
  · rw [Nat.le_div_iff_mul_le (by decide), ← h.count_mul_size]
    exact Nat.mul_le_mul_left _ h.eight_le_miniBlockSize

/-- The registers that a successful CONFIG writes (spec/40_config.md R69, R71). -/
theorem configInv_withConfig (bs mc : Word) (hvalid : ValidConfig s.maxBlockSize bs.toNat mc.toNat)
    (hmc : mc.toNat < 2 ^ 24) : ConfigInv (s.withConfig bs mc).clearPage :=
  ⟨hvalid, hmc, BitVec.toNat_udiv⟩

/-! ### The page relations -/

/-- With no delta pending, the relations of the page say that the minimum is unset and the blocks are whole. -/
theorem pageInv_of_none_pending (hbs : 0 < s.blockSize.toNat) (hnone : s.pendingCount = 0)
    (hmin : s.minDelta = unsetMin) (hempty : s.totalValueCount = 0 → s.outputBuffer = [])
    (hrest : s.totalValueCount ≠ 0 → s.finalized = false → (s.totalValueCount.toNat - 1) % s.blockSize.toNat = 0) :
    PageInv s := by
  have hzero : s.pendingCount.toNat = 0 := congrArg BitVec.toNat hnone
  constructor
  case pendingBound => rwa [hzero]
  case unsetMinimum => exact fun _ => hmin
  case minimumIsLeast => exact fun j hj => absurd hj (by omega)
  case minimumIsOne => exact fun hne => absurd hnone hne
  case emptyPage => exact fun htotal => ⟨hnone, hempty htotal⟩
  case pendingIsRest => exact fun htotal hfin => by rw [hzero, hrest htotal hfin]
  case finalizedIsFlushed => exact fun _ => hnone

theorem pageInv_clearPage (hbs : 0 < s.blockSize.toNat) : PageInv s.clearPage :=
  pageInv_of_none_pending hbs rfl rfl (fun _ => rfl) fun hne => absurd rfl hne

/-- Below its end the count goes on without wrapping. -/
theorem toNat_add_one_of_ne_max {x : Word} (h : x ≠ 0xFFFFFFFF#32) : (x + 1).toNat = x.toNat + 1 := by
  bv_omega

theorem ne_zero_of_toNat_eq_succ {x : Word} {n : Nat} (h : x.toNat = n + 1) : x ≠ 0 := by
  bv_omega

theorem toNat_pos_of_ne_zero {x : Word} (h : x ≠ 0) : 0 < x.toNat := by
  bv_omega

/-- One value more in a block that stays open. -/
theorem succ_mod_of_lt {a b p : Nat} (hmod : a % b = p) (hroom : p + 1 < b) : (a + 1) % b = p + 1 := by
  rw [Nat.add_mod, hmod, Nat.mod_eq_of_lt (a := 1) (by omega), Nat.mod_eq_of_lt hroom]

/-- One value more that fills its block. -/
theorem succ_mod_of_eq {a b p : Nat} (hmod : a % b = p) (hfull : p + 1 = b) : (a + 1) % b = 0 := by
  subst hfull
  exact Nat.succ_mod_succ_eq_zero_iff.mpr hmod

theorem pendingCount_recordDelta_toNat (v : Word) (hslot : s.pendingCount.toNat < s.blockSize.toNat) :
    (s.recordDelta v).pendingCount.toNat = s.pendingCount.toNat + 1 := by
  have hbs := s.blockSize.isLt
  rw [State.recordDelta_pendingCount]
  bv_omega

theorem read_recordDelta (v : Word) (j : Nat) :
    (s.recordDelta v).pd.read j = if j = s.pendingCount.toNat then delta s v else s.pd.read j :=
  Memory.read_write _ _ _ _

/-- The minimum stays the least pending delta, and one of them, when a delta is recorded (spec/41_write.md R76). -/
theorem PageInv.recordDelta (h : PageInv s) (v : Word) (hfin : s.finalized = false) (hzero : s.totalValueCount ≠ 0)
    (hmax : s.totalValueCount ≠ 0xFFFFFFFF#32) (hroom : s.pendingCount.toNat + 1 < s.blockSize.toNat) :
    PageInv (s.recordDelta v) := by
  have hcount := pendingCount_recordDelta_toNat v h.pendingBound
  have htotal : (s.recordDelta v).totalValueCount.toNat = s.totalValueCount.toNat + 1 := toNat_add_one_of_ne_max hmax
  have hpos := toNat_pos_of_ne_zero hzero
  have hne : (s.recordDelta v).pendingCount ≠ 0 := ne_zero_of_toNat_eq_succ hcount
  have hnz : (s.recordDelta v).totalValueCount ≠ 0 := ne_zero_of_toNat_eq_succ htotal
  constructor
  case pendingBound => rwa [hcount]
  case unsetMinimum => exact fun e => absurd e hne
  case minimumIsLeast =>
    intro j hj
    rw [hcount] at hj
    rw [State.recordDelta_minDelta, smin_toInt, read_recordDelta]
    split
    · exact min_le_right _ _
    · exact (min_le_left _ _).trans (h.minimumIsLeast j (by omega))
  case minimumIsOne =>
    intro _
    rw [State.recordDelta_minDelta, hcount]
    by_cases hnew : smin s.minDelta (delta s v) = delta s v
    · exact ⟨s.pendingCount.toNat, by omega, by rw [read_recordDelta, if_pos rfl, hnew]⟩
    · have hold := (smin_eq s.minDelta (delta s v)).resolve_right hnew
      have hpending : s.pendingCount ≠ 0 := fun e => hnew (by rw [h.unsetMinimum e]; exact smin_unsetMin _)
      obtain ⟨j, hj, hread⟩ := h.minimumIsOne hpending
      exact ⟨j, by omega, by rw [read_recordDelta, if_neg (by omega), hold, hread]⟩
  case emptyPage => exact fun e => absurd e hnz
  case pendingIsRest =>
    intro _ _
    have hrest := succ_mod_of_lt (h.pendingIsRest hzero hfin) hroom
    rwa [htotal, hcount, Nat.add_sub_cancel, State.recordDelta_blockSize, ← Nat.sub_add_cancel hpos]
  case finalizedIsFlushed => exact fun hf => absurd (hf.symm.trans hfin) (by decide)

/-- After the flush of a block that is full, the values but the first are whole blocks. -/
theorem PageInv.fill (h : PageInv s) (v : Word) (hfin : s.finalized = false) (hzero : s.totalValueCount ≠ 0)
    (hmax : s.totalValueCount ≠ 0xFFFFFFFF#32) (hfull : s.pendingCount.toNat + 1 = s.blockSize.toNat) :
    PageInv (s.recordDelta v).afterFlush := by
  have htotal : (s.totalValueCount + 1).toNat = s.totalValueCount.toNat + 1 := toNat_add_one_of_ne_max hmax
  have hpos := toNat_pos_of_ne_zero hzero
  have hbs : 0 < s.blockSize.toNat := by omega
  refine pageInv_of_none_pending hbs rfl rfl (fun e => absurd e (ne_zero_of_toNat_eq_succ htotal)) fun _ _ => ?_
  have hrest := succ_mod_of_eq (h.pendingIsRest hzero hfin) hfull
  rw [Nat.sub_add_cancel hpos] at hrest
  rwa [State.flushedWith_totalValueCount, State.recordDelta_totalValueCount, htotal, Nat.add_sub_cancel]

end

/-! ### The invariant is kept -/

section
variable {s t u : State} {d : Decoded} {c : FaultCode} {i : Instr}

theorem StateInv.of_onlyChannels (h : StateInv s) (hst : OnlyChannels s t) : StateInv t := by
  rw [hst]
  exact
    { canonical := h.canonical
      errLegal := h.errLegal
      outputFits := h.outputFits
      config := fun hconf => ⟨(h.config hconf).valid, (h.config hconf).countFits, (h.config hconf).quotient⟩
      blank := fun hconf =>
        have hb := h.blank hconf
        ⟨hb.total, hb.first, hb.previous, hb.pending, hb.minimum, hb.output, hb.finalized⟩
      page := fun herr hconf =>
        have hp := h.page herr hconf
        ⟨hp.pendingBound, hp.unsetMinimum, hp.minimumIsLeast, hp.minimumIsOne, hp.emptyPage, hp.pendingIsRest,
          hp.finalizedIsFlushed⟩ }

theorem StateInv.withResponse (h : StateInv s) (p : Option (List Byte)) : StateInv (s.withResponse p) :=
  h.of_onlyChannels (onlyChannels_withResponse s p)

theorem fitsOut_zero (cap : Option Nat) : fitsOut cap 0 = true := by
  cases cap <;> simp

theorem stateInv_hardReset (s : State) : StateInv s.hardReset where
  canonical := Memory.wf_unspecified _
  errLegal := by simp
  outputFits := fitsOut_zero _
  config := nofun
  blank _ := ⟨rfl, rfl, rfl, rfl, rfl, rfl, rfl⟩
  page _ := nofun

/-- A fault that leaves the data state: in phase FAULT nothing is asked of the page. -/
theorem StateInv.withErr (h : StateInv s) (c : FaultCode) : StateInv (s.withErr c) where
  canonical := h.canonical
  errLegal := c.code_le
  outputFits := h.outputFits
  config hconf := ⟨(h.config hconf).valid, (h.config hconf).countFits, (h.config hconf).quotient⟩
  blank hconf :=
    have hb := h.blank hconf
    ⟨hb.total, hb.first, hb.previous, hb.pending, hb.minimum, hb.output, hb.finalized⟩
  page herr := absurd herr c.code_ne_zero

/-- What a capacity fault leaves of `output_buffer` is within `OUT_CAP` (spec/10_state.md R22). -/
theorem fitsOut_loseData (s : State) : fitsOut s.outCap s.loseData.outputBuffer.length = true := by
  cases hcap : s.outCap with
  | none => rfl
  | some c => simp [hcap]

theorem StateInv.loseData (h : StateInv s) (hconf : s.configured = true) (c : FaultCode) :
    StateInv (s.loseData.withErr c) where
  canonical := Memory.wf_unspecified _
  errLegal := c.code_le
  outputFits := fitsOut_loseData s
  config _ := ⟨(h.config hconf).valid, (h.config hconf).countFits, (h.config hconf).quotient⟩
  blank hblank := absurd (hblank.symm.trans hconf) (by decide)
  page herr := absurd herr c.code_ne_zero

theorem StateInv.raisesFault (h : StateInv s) (hfault : RaisesFault s d c t) : StateInv t := by
  cases hfault with
  | illegal r => exact (h.withErr _).withResponse none
  | protocol i hphase => exact (h.withErr _).withResponse none
  | config bs mc hconf hbad => exact (h.withErr _).withResponse none
  | counter v hconf hfin hmax => exact (h.withErr _).withResponse none
  | writeCapacity v hconf hfin hmax hcap => exact (h.loseData hconf _).withResponse none
  | finishCapacity hconf hfin hcap => exact (h.loseData hconf _).withResponse none

/-- A configured block whose parameters and configuration are those of `s`. -/
theorem ConfigInv.of_same (h : ConfigInv s) (hextra : t.extraSlots = s.extraSlots) (hst : SameConfig s t) :
    ConfigInv t := by
  obtain ⟨hvalid, hcount, hquot⟩ := h
  obtain ⟨hbs, hmc, hmbs⟩ := hst
  exact ⟨by rwa [State.maxBlockSize, hextra, hbs, hmc], by rwa [hmc], by rwa [hbs, hmc, hmbs]⟩

/-- A block that is and stays configured keeps the invariant with canonical PD, bounded output and the page
relations. -/
theorem StateInv.of_configured (h : StateInv s) (hs : s.configured = true) (herr : t.err = s.err)
    (hextra : t.extraSlots = s.extraSlots) (hst : SameConfig s t) (hconf : t.configured = true) (hwf : t.pd.wf)
    (hout : fitsOut t.outCap t.outputBuffer.length = true) (hpage : PageInv t) : StateInv t where
  canonical := hwf
  errLegal := herr ▸ h.errLegal
  outputFits := hout
  config _ := (h.config hs).of_same hextra hst
  blank hblank := absurd (hblank.symm.trans hconf) (by decide)
  page _ _ := hpage

/-- The block's bytes are as many as the capacity test counted (spec/42_flush_block.md R90). -/
theorem blockBytes_length (least : Word) (m : Memory) (n mc mbs : Nat) :
    (blockBytes least m n mc mbs).length = blockLength least m n mc mbs := by
  simp only [blockBytes, blockLength, List.length_append, widthBytes_length, packedBytes_length]

theorem fitsOut_afterFlush (hfits : FlushFits s) :
    fitsOut s.afterFlush.outCap s.afterFlush.outputBuffer.length = true := by
  rw [State.flushedWith_outputBuffer, List.length_append, blockBytes_length]
  exact hfits

theorem StateInv.completes (h : StateInv s) (herr : s.err = 0) (hwf : i.wellFormed = true) (hcomp : Completes s i u) :
    StateInv u := by
  cases hcomp with
  | config bs mc hconf hvalid =>
    have hmc : mc.toNat < 2 ^ 24 := by simpa [Instr.wellFormed] using hwf
    exact
      { canonical := Memory.wf_zeroFill h.canonical _
        errLegal := h.errLegal
        outputFits := fitsOut_zero _
        config := fun _ => configInv_withConfig bs mc hvalid hmc
        blank := nofun
        page := fun _ _ => pageInv_clearPage (s := s.withConfig bs mc) hvalid.1 }
  | first v hconf hfin hzero =>
    have hp := h.page herr hconf
    obtain ⟨hnone, hout⟩ := hp.emptyPage hzero
    exact h.of_configured hconf rfl rfl ⟨rfl, rfl, rfl⟩ hconf h.canonical h.outputFits
      (pageInv_of_none_pending (h.config hconf).blockSize_pos hnone (hp.unsetMinimum hnone) (fun _ => hout)
        fun _ _ => Nat.zero_mod _)
  | record v hconf hfin hzero hmax hroom =>
    exact h.of_configured hconf rfl rfl ⟨rfl, rfl, rfl⟩ hconf (Memory.wf_write h.canonical _ _) h.outputFits
      ((h.page herr hconf).recordDelta v hfin hzero hmax hroom)
  | fill v hconf hfin hzero hmax hfull hready hfits =>
    exact h.of_configured hconf rfl rfl ⟨rfl, rfl, rfl⟩ hconf
      (Memory.wf_subtractMin (Memory.wf_write h.canonical _ _) _ _) (fitsOut_afterFlush hfits)
      ((h.page herr hconf).fill v hfin hzero hmax hfull)
  | replay hconf hfin => exact h
  | close hconf hfin hnone =>
    have hp := h.page herr hconf
    exact h.of_configured hconf rfl rfl ⟨rfl, rfl, rfl⟩ hconf h.canonical h.outputFits
      (pageInv_of_none_pending (h.config hconf).blockSize_pos hnone (hp.unsetMinimum hnone)
        (fun htotal => (hp.emptyPage htotal).2) nofun)
  | flushClose hconf hfin hpending hready hfits =>
    have hp := h.page herr hconf
    exact h.of_configured hconf rfl rfl ⟨rfl, rfl, rfl⟩ hconf (Memory.wf_subtractMin h.canonical _ _)
      (fitsOut_afterFlush hfits)
      (pageInv_of_none_pending (h.config hconf).blockSize_pos rfl rfl
        (fun htotal => absurd (hp.emptyPage htotal).1 hpending) nofun)
  | reset hconf =>
    exact h.of_configured hconf rfl rfl ⟨rfl, rfl, rfl⟩ hconf (Memory.wf_zeroFill h.canonical _)
      (fitsOut_zero _) (pageInv_clearPage (h.config hconf).blockSize_pos)

end

/-- Settles O44: every way of a step keeps it; a decoded CONFIG is well formed, which bounds its count. -/
theorem stepKeepsInv : Obligations.StepKeepsInv := by
  intro s t h hstep
  obtain hands | ⟨rest, -, rfl⟩ | ⟨w, rest, -, hw⟩ := step_next hstep
  · exact h.of_onlyChannels hands.only
  · exact stateInv_hardReset _
  · have hs : StateInv { s with inputs := rest } := h.of_onlyChannels rfl
    obtain ⟨-, rfl⟩ | ⟨-, c, hfault⟩ | ⟨herr, i, u, hd, hcomp, rfl⟩ := runWord_next hw
    · exact hs.withResponse none
    · exact hs.raisesFault hfault
    · exact (hs.completes herr (wellFormed_of_decode hd) hcomp).withResponse _

end Sys2Proof.Machine
end

section
/-! SUPPORT. What the invariant gives: it holds after hard reset, keeps every step from stopping the machine, says when
a WRITE or FINISH completes, and comes with whole blocks in `output_buffer` of an open page (spec/10_state.md R21
item 7). -/

namespace Sys2Proof.Machine

/-! ### After hard reset -/

/-- Settles O43: the block is blank and unconfigured, so nothing is asked of its page. -/
theorem invHoldsAtReset : Obligations.InvHoldsAtReset := by
  constructor
  · constructor
    case canonical => exact Memory.wf_unspecified 0
    case errLegal => decide
    case outputFits => exact fitsOut_zero _
    case config => exact nofun
    case blank => exact fun _ => ⟨rfl, rfl, rfl, rfl, rfl, rfl, rfl⟩
    case page => exact fun _ => nofun
  · intro hopen
    obtain ⟨-, hconf, -⟩ := (phase_eq_opened _).mp hopen
    cases hconf

/-! ### No command stops the machine -/

section
variable {s : State}

theorem flushBlock_answers {rest : State → Result} (hready : FlushReady s) (hrest : ∀ u, ∃ t, rest u = .next t) :
    ∃ t, (flushBlock s).andThen rest = .next t := by
  obtain ⟨hnot, -⟩ | ⟨-, -, hr⟩ | ⟨-, -, hr⟩ := flushBlock_cases s
  · exact absurd hready hnot
  · rw [hr]
    exact hrest _
  · rw [hr]
    exact ⟨_, rfl⟩

/-- What the flush of a filling WRITE requires holds: its block has exactly `BS` deltas. -/
theorem ConfigInv.flushReady_recordDelta (h : ConfigInv s) (v : Word)
    (hslot : s.pendingCount.toNat < s.blockSize.toNat) : FlushReady (s.recordDelta v) :=
  (h.recordDelta v).flushReady (by
    rw [pendingCount_recordDelta_toNat v hslot, State.recordDelta_blockSize]
    omega)

theorem acceptValue_answers (v : Word) (hconf : ConfigInv s) (hslot : s.pendingCount.toNat < s.blockSize.toNat) :
    ∃ t, acceptValue v s = .next t := by
  obtain ⟨-, hr⟩ | ⟨-, hr⟩ | ⟨-, -, ⟨hbeyond, -⟩ | ⟨-, -, hr⟩ | ⟨-, -, hr⟩⟩ := acceptValue_cases v s
  · exact ⟨_, hr⟩
  · exact ⟨_, hr⟩
  · omega
  · exact ⟨_, hr⟩
  · rw [hr]
    exact flushBlock_answers (hconf.flushReady_recordDelta v hslot) fun u => ⟨_, rfl⟩

theorem finishPage_answers (hconf : ConfigInv s) (hslot : s.pendingCount.toNat < s.blockSize.toNat) :
    ∃ t, finishPage s = .next t := by
  obtain ⟨-, hr⟩ | ⟨-, -, hr⟩ | ⟨-, -, hr⟩ := finishPage_cases s
  · exact ⟨_, hr⟩
  · exact ⟨_, hr⟩
  · rw [hr]
    exact flushBlock_answers (hconf.flushReady hslot.le) fun u => ⟨_, rfl⟩

/-- A guarded command answers where its own meaning does. -/
theorem guarded_answers {i : Instr} {run : State → Result}
    (hrun : s.err = 0 → runsIn i s.phase = true → ∃ t, run s = .next t) : ∃ t, guarded i run s = .next t := by
  obtain ⟨-, hr⟩ | ⟨-, -, hr⟩ | ⟨herr, hphase, hr⟩ := guarded_cases i run s
  · exact ⟨_, hr⟩
  · exact ⟨_, hr⟩
  · rw [hr]
    exact hrun herr hphase

/-- In a state of the invariant every command answers (log 10). -/
theorem StateInv.exec_answers (h : StateInv s) (i : Instr) : ∃ t, exec i s = .next t := by
  cases i with
  | config bs mc =>
    refine guarded_answers (run := configure bs mc) fun _ _ => ?_
    obtain ⟨-, hr⟩ | ⟨-, hr⟩ := configure_cases bs mc s <;> exact ⟨_, hr⟩
  | write v =>
    refine guarded_answers (run := acceptValue v) fun herr hphase => ?_
    obtain ⟨hconf, -⟩ : s.configured = true ∧ s.finalized = false := by simpa [runsIn_write v s herr] using hphase
    exact acceptValue_answers v (h.config hconf) (h.page herr hconf).pendingBound
  | finish =>
    refine guarded_answers (run := finishPage) fun herr hphase => ?_
    rw [runsIn_finish s herr] at hphase
    exact finishPage_answers (h.config hphase) (h.page herr hphase).pendingBound
  | reset => exact guarded_answers (run := fun u => respond u.clearPage) fun _ _ => ⟨_, rfl⟩

theorem StateInv.runWord_answers (h : StateInv s) (w : CommandWord) : ∃ t, runWord w s = .next t := by
  obtain ⟨i, -, hr⟩ | ⟨r, -, hr⟩ := runWord_cases w s <;> rw [hr]
  · exact h.exec_answers i
  · unfold reservedWord
    split <;> exact ⟨_, rfl⟩

end

/-- Settles O45: the steps that run no word always answer, and a word answers under the invariant. -/
theorem stepNeverStops : Obligations.StepNeverStops := by
  intro s h
  obtain ⟨-, hr⟩ | ⟨rest, -, hr⟩ | ⟨rest, -, hr⟩ | ⟨w, rest, -, ⟨-, hr⟩ | ⟨-, hr⟩⟩ := step_cases s
  · exact ⟨_, hr⟩
  · exact ⟨_, hr⟩
  · exact ⟨_, hr⟩
  · exact ⟨_, hr⟩
  · rw [hr]
    exact (h.of_onlyChannels rfl : StateInv { s with inputs := rest }).runWord_answers w

/-! ### When WRITE and FINISH complete -/

section
variable {s : State}

/-- An open page takes a value below the count's end, unless the value fills a block that does not fit. -/
theorem StateInv.write_completes (h : StateInv s) (v : Word) (hopen : s.phase = .opened)
    (hmax : s.totalValueCount ≠ 0xFFFFFFFF#32)
    (hfits : s.totalValueCount ≠ 0 → s.pendingCount.toNat + 1 = s.blockSize.toNat → FlushFits (s.recordDelta v)) :
    ∃ u, Completes s (.write v) u := by
  obtain ⟨herr, hconf, hfin⟩ := (phase_eq_opened s).mp hopen
  have hslot := (h.page herr hconf).pendingBound
  by_cases hzero : s.totalValueCount = 0
  · exact ⟨_, .first v hconf hfin hzero⟩
  · by_cases hfull : s.pendingCount.toNat + 1 = s.blockSize.toNat
    · exact ⟨_, .fill v hconf hfin hzero hmax hfull ((h.config hconf).flushReady_recordDelta v hslot)
        (hfits hzero hfull)⟩
    · exact ⟨_, .record v hconf hfin hzero hmax (by omega)⟩

/-- A configured block closes its page, unless a block is pending that does not fit. -/
theorem StateInv.finish_completes (h : StateInv s) (herr : s.err = 0) (hconf : s.configured = true)
    (hfits : s.finalized = false → s.pendingCount ≠ 0 → FlushFits s) : ∃ u, Completes s .finish u := by
  cases hfin : s.finalized with
  | true => exact ⟨_, .replay hconf hfin⟩
  | false =>
    by_cases hnone : s.pendingCount = 0
    · exact ⟨_, .close hconf hfin hnone⟩
    · exact ⟨_, .flushClose hconf hfin hnone ((h.config hconf).flushReady (h.page herr hconf).pendingBound.le)
        (hfits hfin hnone)⟩

theorem flushFits_of_unbounded (hcap : s.outCap = none) : FlushFits s := by
  rw [FlushFits, hcap]
  rfl

/-- The phases in which a command ends that completes (spec/70_reset_and_hazards.md R137). -/
theorem Completes.phase_eq {i : Instr} {u : State} (herr : s.err = 0) (h : Completes s i u) :
    u.phase = if i = .finish then .finalized else .opened := by
  have hu := h.err_eq.trans herr
  cases h with
  | replay hconf hfin => exact (phase_eq_finalized _).mpr ⟨herr, hconf, hfin⟩
  | close hconf hfin hnone => exact (phase_eq_finalized _).mpr ⟨herr, hconf, rfl⟩
  | flushClose hconf hfin hpending hready hfits => exact (phase_eq_finalized _).mpr ⟨herr, hconf, rfl⟩
  | config bs mc hconf hvalid => exact (phase_eq_opened _).mpr ⟨herr, rfl, rfl⟩
  | reset hconf => exact (phase_eq_opened _).mpr ⟨herr, hconf, rfl⟩
  | _ => exact (phase_eq_opened _).mpr ⟨hu, by assumption, by assumption⟩

theorem phase_withResponse (p : Option (List Byte)) : (s.withResponse p).phase = s.phase := rfl

end

/-- Settles O27: where every block fits, the WRITE completes, and it leaves the page open. -/
theorem everyValueIsAccepted : Obligations.EveryValueIsAccepted := by
  intro s v h hopen hcap hmax
  obtain ⟨herr, -, -⟩ := (phase_eq_opened s).mp hopen
  obtain ⟨u, hcomp⟩ := h.write_completes v hopen hmax fun _ _ => flushFits_of_unbounded hcap
  exact ⟨_, hcomp.exec_eq herr, hcomp.phase_eq herr⟩

/-! ### Whole blocks -/

section
variable {s t u : State} {d : Decoded} {c : FaultCode} {i : Instr}

theorem wholeBlocksInv_of_not_opened (h : s.phase ≠ .opened) : WholeBlocksInv s := fun hopen => absurd hopen h

theorem wholeBlocksInv_of_err (h : s.err ≠ 0) : WholeBlocksInv s :=
  wholeBlocksInv_of_not_opened fun hopen => h ((phase_eq_opened s).mp hopen).1

theorem wholeBlocksInv_of_empty (h : s.totalValueCount = 0) : WholeBlocksInv s := fun _ hne => absurd h hne

theorem WholeBlocksInv.of_onlyChannels (h : WholeBlocksInv s) (hst : OnlyChannels s t) : WholeBlocksInv t := by
  rw [hst]
  exact h

/-- Whole blocks speak of `output_buffer` and the configuration alone. -/
theorem WholeBlocks.of_same {k : Nat} (h : WholeBlocks s k) (hst : SameConfig s t)
    (hout : t.outputBuffer = s.outputBuffer) : WholeBlocks t k := by
  obtain ⟨hbs, hmc, hmbs⟩ := hst
  rwa [WholeBlocks, hbs, hmc, hmbs, hout]

theorem WholeBlocks.snoc {k : Nat} (h : WholeBlocks s k) (least : Word) (m : Memory) (hst : SameConfig s t)
    (hout : t.outputBuffer = s.outputBuffer ++
      blockBytes least m s.blockSize.toNat s.miniBlockCount.toNat s.miniBlockSize.toNat) : WholeBlocks t (k + 1) := by
  obtain ⟨hbs, hmc, hmbs⟩ := hst
  obtain ⟨blocks, hlen, hbytes⟩ := h
  refine ⟨blocks ++ [(least, m)], by rw [List.length_append, hlen]; rfl, ?_⟩
  rw [hout, hbytes, hbs, hmc, hmbs, List.flatMap_append, List.flatMap_singleton]

/-- The division that goes with `succ_mod_of_lt`. -/
theorem succ_div_of_lt {a b p : Nat} (hmod : a % b = p) (hroom : p + 1 < b) : (a + 1) / b = a / b := by
  refine Nat.succ_div_of_mod_ne_zero ?_
  rw [succ_mod_of_lt hmod hroom]
  omega

/-- The division that goes with `succ_mod_of_eq`. -/
theorem succ_div_of_eq {a b p : Nat} (hmod : a % b = p) (hfull : p + 1 = b) : (a + 1) / b = a / b + 1 :=
  Nat.succ_div_of_mod_eq_zero (succ_mod_of_eq hmod hfull)

/-- The values but the first, after one more is counted. -/
theorem totalValueCount_succ_sub_one (hmax : s.totalValueCount ≠ 0xFFFFFFFF#32) (hzero : s.totalValueCount ≠ 0) :
    (s.totalValueCount + 1).toNat - 1 = s.totalValueCount.toNat - 1 + 1 := by
  have hpos := toNat_pos_of_ne_zero hzero
  rw [toNat_add_one_of_ne_max hmax]
  omega

/-- The WRITE that fills the block adds its bytes, with all `BS` slots valid. -/
theorem flushBytes_recordDelta_of_full (v : Word) (hfull : s.pendingCount.toNat + 1 = s.blockSize.toNat) :
    flushBytes (s.recordDelta v) =
      blockBytes (smin s.minDelta (delta s v)) (flushMemory (s.recordDelta v)) s.blockSize.toNat s.miniBlockCount.toNat
        s.miniBlockSize.toNat := by
  have hcount := pendingCount_recordDelta_toNat v (s := s) (by omega)
  rw [flushBytes, hcount, hfull]
  rfl

theorem WholeBlocksInv.completes (h : WholeBlocksInv s) (hinv : StateInv s) (herr : s.err = 0)
    (hcomp : Completes s i u) : WholeBlocksInv u := by
  have hphase := hcomp.phase_eq herr
  cases hcomp with
  | config bs mc hconf hvalid => exact wholeBlocksInv_of_empty rfl
  | reset hconf => exact wholeBlocksInv_of_empty rfl
  | replay hconf hfin => exact h
  | close hconf hfin hnone => exact wholeBlocksInv_of_not_opened (by simp [hphase])
  | flushClose hconf hfin hpending hready hfits => exact wholeBlocksInv_of_not_opened (by simp [hphase])
  | first v hconf hfin hzero =>
    obtain ⟨-, hout⟩ := (hinv.page herr hconf).emptyPage hzero
    intro _ _
    exact ⟨[], (Nat.zero_div _).symm, hout⟩
  | record v hconf hfin hzero hmax hroom =>
    have hblocks := h ((phase_eq_opened s).mpr ⟨herr, hconf, hfin⟩) hzero
    intro _ _
    rw [State.recordDelta_totalValueCount, totalValueCount_succ_sub_one hmax hzero, State.recordDelta_blockSize,
      succ_div_of_lt ((hinv.page herr hconf).pendingIsRest hzero hfin) hroom]
    exact hblocks.of_same ⟨rfl, rfl, rfl⟩ rfl
  | fill v hconf hfin hzero hmax hfull hready hfits =>
    have hblocks := h ((phase_eq_opened s).mpr ⟨herr, hconf, hfin⟩) hzero
    intro _ _
    rw [State.flushedWith_totalValueCount, State.recordDelta_totalValueCount, totalValueCount_succ_sub_one hmax hzero,
      State.flushedWith_blockSize, State.recordDelta_blockSize,
      succ_div_of_eq ((hinv.page herr hconf).pendingIsRest hzero hfin) hfull]
    exact hblocks.snoc _ _ ⟨rfl, rfl, rfl⟩ (by
      rw [State.flushedWith_outputBuffer, flushBytes_recordDelta_of_full v hfull]
      rfl)

end

/-- Settles O46: beats and inputs are no part of it, hard reset and faults end phase OPEN, and every command that
completes keeps it. -/
theorem stepKeepsWholeBlocks : Obligations.StepKeepsWholeBlocks := by
  intro s t hinv h hstep
  obtain hands | ⟨rest, -, rfl⟩ | ⟨w, rest, -, hw⟩ := step_next hstep
  · exact h.of_onlyChannels hands.only
  · exact wholeBlocksInv_of_empty rfl
  · have hs : StateInv { s with inputs := rest } := hinv.of_onlyChannels rfl
    have hblocks : WholeBlocksInv { s with inputs := rest } := h.of_onlyChannels rfl
    obtain ⟨-, rfl⟩ | ⟨-, c, hfault⟩ | ⟨herr, i, u, -, hcomp, rfl⟩ := runWord_next hw
    · exact hblocks.of_onlyChannels (onlyChannels_withResponse _ _)
    · exact wholeBlocksInv_of_err (hfault.err_eq ▸ c.code_ne_zero)
    · exact (hblocks.completes hs herr hcomp).of_onlyChannels (onlyChannels_withResponse _ _)

end Sys2Proof.Machine
end

section
/-! SUPPORT. What each command changes and what it leaves unchanged (spec/10_state.md R30, spec/20_memory.md R37,
spec/40_config.md to spec/45_finish_reset.md), read off the list of the ways a command completes. -/

namespace Sys2Proof.Machine

/-! ### The verdicts of CONFIG -/

/-- Settles O21: each pair meets the check of R70 at depth 384, fails it at every depth, or asks for more than the
depth. -/
theorem configVerdicts : Obligations.ConfigVerdicts := by
  intro s herr hconf hdepth verdict
  have haccepted {bs mc : Word} (h : ValidConfig 384 bs.toNat mc.toNat) : verdict bs mc 0 := by
    obtain ⟨hpos, h128, hbs, hmc, hdvd, height⟩ := h
    exact ⟨_, (Completes.config bs mc hconf ⟨hpos, h128, by omega, hmc, hdvd, height⟩).exec_eq herr, herr⟩
  have hrefused {bs mc : Word} (h : ¬ ValidConfig s.maxBlockSize bs.toNat mc.toNat) : verdict bs mc 1 :=
    ⟨_, (exec_config_of_unconfigured bs mc herr hconf).trans (configure_of_invalid h), rfl⟩
  have hnever {bs mc : Word} (h : ¬ ValidConfig bs.toNat bs.toNat mc.toNat) : verdict bs mc 1 :=
    hrefused fun ⟨hpos, h128, _, hmc, hdvd, height⟩ => h ⟨hpos, h128, le_rfl, hmc, hdvd, height⟩
  refine ⟨haccepted (by decide), haccepted (by decide), haccepted (by decide), haccepted (by decide),
    haccepted (by decide), haccepted (by decide), hnever (by decide), hnever (by decide), hnever (by decide),
    hnever (by decide), hnever (by decide), hnever (by decide), hnever (by decide), fun bs hbs => ?_⟩
  exact hrefused fun ⟨_, _, hle, _⟩ => by omega

/-! ### WRITE: count and flush -/

/-- Settles O24: each of the three ways a WRITE completes counts it, and the count is not at its end in any of them. -/
theorem countAdvancesOrFaults : Obligations.CountAdvancesOrFaults := by
  intro s v herr hconf hfin
  refine ⟨fun t h ht => ?_, fun hmax => ?_⟩
  · obtain ⟨u, hcomp, rfl⟩ := completesAsListed_exec (.write v) herr t h ht
    cases hcomp with
    | first _ _ _ hzero => rw [hzero]; rfl
    | record _ _ _ hzero hmax hroom => exact toNat_add_one_of_ne_max hmax
    | fill _ _ _ hzero hmax hfull hready hfits => exact toNat_add_one_of_ne_max hmax
  · have hstatus : (s.withErr .resource).status = 0x0A#8 := by simp [State.status, hconf, hfin, FaultCode.code]
    rw [exec_write_of_countAtEnd v herr hconf hfin hmax, State.withResponse_none, hstatus]
    rfl

/-- Settles O25: the flush finds the delta recorded and `BS` deltas pending. -/
theorem fillingWriteFlushes : Obligations.FillingWriteFlushes := by
  intro s v herr hconf hfin hinv hzero hmax hfull
  have hslot : s.pendingCount.toNat < s.blockSize.toNat := by omega
  have hcount : (s.recordDelta v).pendingCount = s.blockSize := (pendingCount_recordDelta_eq_iff v hslot).mpr hfull
  have hready := hinv.flushReady_recordDelta v hslot
  refine ⟨flushMemory (s.recordDelta v), smin s.minDelta (delta s v), fun j => ?_, smin_toInt _ _, fun hfits => ?_⟩
  · rw [Memory.read_subtractMin, hcount, read_recordDelta, State.recordDelta_minDelta]
    by_cases hlast : j = s.pendingCount.toNat
    · rw [if_pos (by omega), if_pos hlast, if_pos hlast]
      rfl
    · simp only [if_neg hlast]
  · have hfits' : FlushFits (s.recordDelta v) := by
      rw [FlushFits, flushLength, hcount]
      exact hfits
    have hstatus : (s.recordDelta v).afterFlush.status = 0x08#8 := State.status_opened herr hconf hfin
    rw [(Completes.fill v hconf hfin hzero hmax hfull hready hfits').exec_eq herr, answer_of_ne_finish (by nofun),
      State.withResponse_none, hstatus, State.afterFlush, flushBytes_recordDelta_of_full v hfull]
    rfl

/-! ### FINISH and RESET -/

/-- A response with payload at the end of a FINISH that completed (R106). -/
theorem State.withResponse_payload {s : State} (herr : s.err = 0) (hconf : s.configured = true)
    (hfin : s.finalized = true) : s.withResponse (some (payload s)) = { s with
      finalized := true
      rspQueue := s.rspQueue ++ [{ status := 0x18#8, hasPayload := true }]
      payQueue := s.payQueue ++ payBeats (payload s) } := by
  simp [State.withResponse, State.status_closed herr hconf hfin, hfin]

/-- Settles O37: outside FAULT and UNCONFIGURED each way through FINISH ends in a finalized page, and `finalized` is no
part of the payload. -/
theorem finishRule : Obligations.FinishRule := by
  intro s header answered
  have hcompletes {u : State} (herr : s.err = 0) (hconf : u.configured = true) (hfin : u.finalized = true)
      (hcomp : Completes s .finish u) : exec .finish s = .next (answered u) := by
    have hu := hcomp.err_eq.trans herr
    rw [hcomp.exec_eq herr, answer_finish hu, State.withResponse_payload hu hconf hfin]
    rfl
  refine ⟨fun herr => ?_, fun herr hconf => ?_, fun herr hconf hnone => ?_,
    fun herr hconf hfin hinv hpending hbound => ?_⟩
  · rw [exec_of_err .finish herr, State.withResponse_none]
  · rw [exec_finish_of_unconfigured herr hconf, State.withResponse_none]
    rfl
  · cases hfin : s.finalized with
    | true => exact hcompletes herr hconf hfin (.replay hconf hfin)
    | false =>
      have hpending : s.pendingCount = 0 := hnone.resolve_left (by simp [hfin])
      exact hcompletes (u := s.withFinalized) herr hconf rfl (.close hconf hfin hpending)
  · refine ⟨flushMemory s, Memory.read_subtractMin _ _ _, fun hfits => ?_⟩
    exact hcompletes (u := s.afterFlush.withFinalized) herr hconf rfl
      (.flushClose hconf hfin hpending (hinv.flushReady hbound) hfits)

theorem read_clearPage_of_lt {s : State} {j : Nat} (hj : j < s.blockSize.toNat) : s.clearPage.pd.read j = 0 :=
  (Memory.read_zeroFill _ _ _).trans (if_pos hj)

/-- Clearing a page zero-fills below the block size only. -/
theorem read_clearPage_of_le {s : State} {j : Nat} (hj : s.blockSize.toNat ≤ j) :
    s.clearPage.pd.read j = s.pd.read j :=
  (Memory.read_zeroFill _ _ _).trans (if_neg (by omega))

/-- Settles O41: both ways end in a cleared page of the same configuration, whose quotient CONFIG computes anew; the
slots below the block size read 0 in both. -/
theorem resetEqualsFreshConfig : Obligations.ResetEqualsFreshConfig := by
  intro s h herr hconf
  have hinv := h.config hconf
  have hquot : s.miniBlockSize = s.blockSize / s.miniBlockCount :=
    BitVec.eq_of_toNat_eq (by rw [hinv.quotient, BitVec.toNat_udiv])
  refine ⟨_, _, (Completes.reset hconf).exec_eq herr,
    (Completes.config (s := s.hardReset) s.blockSize s.miniBlockCount rfl hinv.valid).exec_eq rfl, rfl, ?_⟩
  refine ⟨herr, hconf, rfl, rfl, rfl, fun _ _ => ⟨rfl, rfl, hquot, rfl, rfl, rfl, rfl, rfl, rfl, fun j hj => ?_⟩⟩
  exact (read_clearPage_of_lt (s := s) hj).trans
    (read_clearPage_of_lt (s := s.hardReset.withConfig s.blockSize s.miniBlockCount) hj).symm

/-! ### Frames -/

/-- A read below the flushed slots is the only one that a flush changes (spec/42_flush_block.md R82). -/
theorem read_afterFlush {s : State} {j : Nat} (hj : s.pendingCount.toNat ≤ j) :
    s.afterFlush.pd.read j = s.pd.read j := by
  rw [State.flushedWith_pd, Memory.read_subtractMin, if_neg (by omega)]

/-- Settles O51: a flush appends its block, and nothing else that WRITE and FINISH do touches the bytes. -/
theorem outputOnlyGrows : Obligations.OutputOnlyGrows := by
  intro i s t hi h ht
  obtain rfl | ⟨u, hcomp, rfl⟩ := exec_next_of_err_eq h ht
  · exact List.prefix_refl _
  · cases hcomp with
    | fill v hconf hfin hzero hmax hfull hready hfits => exact List.prefix_append _ _
    | flushClose hconf hfin hpending hready hfits => exact List.prefix_append _ _
    | config bs mc hconf hvalid => simp at hi
    | reset hconf => simp at hi
    | _ => exact List.prefix_refl _

/-- Settles O52: a WRITE that completes records the first value, or records a delta, or does that and flushes. -/
theorem writeFrame : Obligations.WriteFrame := by
  intro v s t h ht
  obtain rfl | ⟨u, hcomp, rfl⟩ := exec_next_of_err_eq h ht
  · simp [payBeats]
  rw [answer_of_ne_finish (by nofun), State.withResponse_none]
  cases hcomp with
  | first _ hconf hfin hzero =>
    refine ⟨rfl, rfl, rfl, rfl, rfl, rfl, rfl, rfl, rfl, rfl, rfl, rfl, fun hne => absurd hzero hne,
      fun _ => ⟨rfl, rfl, fun _ => rfl⟩, fun _ => ⟨rfl, fun _ _ => rfl⟩, fun _ _ => rfl⟩
  | record _ hconf hfin hzero hmax hroom =>
    refine ⟨rfl, rfl, rfl, rfl, rfl, rfl, rfl, rfl, rfl, rfl, rfl, rfl, fun _ => rfl, fun e => absurd e hzero,
      fun _ => ⟨rfl, fun j hj => ?_⟩, fun j hj => ?_⟩
    · exact Memory.read_write_other _ _ _ _ hj
    · exact Memory.read_write_other _ _ _ _ (by omega)
  | fill _ hconf hfin hzero hmax hfull hready hfits =>
    refine ⟨rfl, rfl, rfl, rfl, rfl, rfl, rfl, rfl, rfl, rfl, rfl, rfl, fun _ => rfl, fun e => absurd e hzero,
      fun hno => absurd hfull (hno.resolve_left hzero), fun j hj => ?_⟩
    have hcount := pendingCount_recordDelta_toNat v (s := s) (by omega)
    exact (read_afterFlush (by omega)).trans (Memory.read_write_other _ _ _ _ (by omega))

/-- Settles O53: a FINISH that completes sets `finalized`, after a flush or without one, or replays. -/
theorem finishFrame : Obligations.FinishFrame := by
  intro s t h ht
  obtain rfl | ⟨u, hcomp, rfl⟩ := exec_next_of_err_eq h ht
  · simp
  cases hcomp with
  | flushClose hconf hfin hpending hready hfits =>
    refine ⟨rfl, rfl, rfl, rfl, rfl, rfl, rfl, rfl, rfl, rfl, rfl, rfl, rfl, fun j hj => read_afterFlush hj,
      fun hno => ?_⟩
    exact absurd (hno.resolve_left (by simp [hfin])) hpending
  | _ =>
    exact ⟨rfl, rfl, rfl, rfl, rfl, rfl, rfl, rfl, rfl, rfl, rfl, rfl, rfl, fun _ _ => rfl,
      fun _ => ⟨rfl, rfl, rfl, rfl⟩⟩

/-- Settles O54: CONFIG and RESET raise no ERR_RESOURCE, so a fault of theirs writes `err` alone; completing, they clear
the page. -/
theorem configAndResetFrame : Obligations.ConfigAndResetFrame := by
  intro i s t hi h
  have hfinish : Decoded.command i ≠ .command .finish := by
    obtain ⟨bs, mc, rfl⟩ | rfl := hi <;> nofun
  obtain ⟨-, rfl⟩ | ⟨-, c, hfault⟩ | ⟨-, u, hcomp, rfl⟩ := exec_next h
  · simp [payBeats]
  · have hform : c ≠ .resource := by
      rintro rfl
      obtain ⟨-, -, ⟨v, hwrite⟩ | hfin⟩ := hfault.of_resource
      · obtain ⟨bs, mc, rfl⟩ | rfl := hi <;> cases hwrite
      · exact hfinish hfin
    obtain rfl := hfault.precise (.inl hform)
    simp [payBeats]
  · rw [answer_of_ne_finish hfinish, State.withResponse_none]
    cases hcomp with
    | config bs mc hconf hvalid =>
      exact ⟨rfl, rfl, rfl, rfl, rfl, rfl, rfl, fun j hj => read_clearPage_of_le (s := s.withConfig bs mc) hj, nofun⟩
    | reset hconf =>
      exact ⟨rfl, rfl, rfl, rfl, rfl, rfl, rfl, fun j hj => read_clearPage_of_le hj, fun _ => ⟨rfl, rfl, rfl, rfl⟩⟩
    | _ => simp at hi

end Sys2Proof.Machine
end

section
/-! SUPPORT. What the spec leaves unspecified is not observed (spec/30_encoding.md R65, spec/10_state.md R29): two
blocks that agree on the view go through every command side by side. FLUSH_BLOCK is where slots are read, and it reads
below `BS` only. -/

namespace Sys2Proof.Machine

/-! ### The bytes of a block depend on the slots of its touched mini-blocks alone -/

section
variable {m m' : Memory} {n mbs : Nat}

theorem Memory.orSlots_congr {lo k : Nat} (h : ∀ j < k, m.read (lo + j) = m'.read (lo + j)) :
    m.orSlots lo k = m'.orSlots lo k := by
  induction k with
  | zero => rfl
  | succ k ih => rw [Memory.orSlots, Memory.orSlots, ih fun j hj => h j (by omega), h k (by omega)]

/-- The slots of a touched mini-block are below those of the touched mini-blocks together. -/
theorem slot_lt_of_touched {i k : Nat} (hi : i < touched n mbs) (hk : k < mbs) : i * mbs + k < touched n mbs * mbs := by
  have hnext : (i + 1) * mbs ≤ touched n mbs * mbs := Nat.mul_le_mul_right _ hi
  rw [Nat.succ_mul] at hnext
  omega

variable (h : ∀ j < touched n mbs * mbs, m.read j = m'.read j)
include h

theorem miniBlockWidth_congr (i : Nat) : miniBlockWidth m n mbs i = miniBlockWidth m' n mbs i := by
  unfold miniBlockWidth
  split
  · next hi =>
    refine congrArg bitlen (Memory.orSlots_congr fun j hj => h _ (slot_lt_of_touched hi ?_))
    rw [miniBlockValidEnd, miniBlockBase, Nat.succ_mul] at hj
    omega
  · rfl

theorem packMiniBlock_congr {i : Nat} (hi : i < touched n mbs) :
    packMiniBlock m n mbs i = packMiniBlock m' n mbs i := by
  refine List.flatMap_congr fun g hg => ?_
  have hgroup : g < mbs / 8 := List.mem_range.mp hg
  have hread (k : Nat) (hk : k < 8) : m.read (groupBase mbs i g + k) = m'.read (groupBase mbs i g + k) := by
    rw [groupBase, Nat.add_assoc]
    exact h _ (slot_lt_of_touched hi (by omega))
  have hbase := hread 0 (by decide)
  rw [Nat.add_zero] at hbase
  rw [miniBlockWidth_congr h, packGroup, packGroup, hbase, hread 1 (by decide), hread 2 (by decide),
    hread 3 (by decide), hread 4 (by decide), hread 5 (by decide), hread 6 (by decide), hread 7 (by decide)]

theorem blockBytes_congr (least : Word) (mc : Nat) : blockBytes least m n mc mbs = blockBytes least m' n mc mbs := by
  have hwidths : widthBytes m n mc mbs = widthBytes m' n mc mbs := by
    simp only [widthBytes, miniBlockWidth_congr h]
  have hpacked : packedBytes m n mbs = packedBytes m' n mbs :=
    List.flatMap_congr fun i hi => packMiniBlock_congr h (List.mem_range.mp hi)
  rw [blockBytes, blockBytes, hwidths, hpacked]

end

/-! ### The view, by its parts -/

/-- The part of the view that every phase shows. -/
structure SameFlags (s t : State) : Prop where
  err : s.err = t.err
  configured : s.configured = t.configured
  finalized : s.finalized = t.finalized
  extraSlots : s.extraSlots = t.extraSlots
  outCap : s.outCap = t.outCap

/-- The part that phases OPEN and FINALIZED show. -/
structure SamePage (s t : State) : Prop where
  blockSize : s.blockSize = t.blockSize
  miniBlockCount : s.miniBlockCount = t.miniBlockCount
  miniBlockSize : s.miniBlockSize = t.miniBlockSize
  totalValueCount : s.totalValueCount = t.totalValueCount
  firstValue : s.firstValue = t.firstValue
  previousValue : s.previousValue = t.previousValue
  pendingCount : s.pendingCount = t.pendingCount
  minDelta : s.minDelta = t.minDelta
  outputBuffer : s.outputBuffer = t.outputBuffer
  read : ∀ j < s.blockSize.toNat, s.pd.read j = t.pd.read j

section
variable {s t u v : State}

theorem SameView.flags (h : SameView s t) : SameFlags s t :=
  ⟨h.err, h.configured, h.finalized, h.extraSlots, h.outCap⟩

theorem SameView.samePage (h : SameView s t) (herr : s.err = 0) (hconf : s.configured = true) : SamePage s t := by
  obtain ⟨hbs, hmc, hmbs, htotal, hfirst, hprev, hpending, hmin, hout, hread⟩ := h.page herr hconf
  exact ⟨hbs, hmc, hmbs, htotal, hfirst, hprev, hpending, hmin, hout, hread⟩

theorem SameFlags.sameView (h : SameFlags s t) (hpage : s.err = 0 → s.configured = true → SamePage s t) :
    SameView s t where
  err := h.err
  configured := h.configured
  finalized := h.finalized
  extraSlots := h.extraSlots
  outCap := h.outCap
  page herr hconf :=
    have hp := hpage herr hconf
    ⟨hp.blockSize, hp.miniBlockCount, hp.miniBlockSize, hp.totalValueCount, hp.firstValue, hp.previousValue,
      hp.pendingCount, hp.minDelta, hp.outputBuffer, hp.read⟩

theorem SameView.status_eq (h : SameView s t) : s.status = t.status :=
  State.status_congr s t h.err h.configured h.finalized

theorem SameView.phase_eq (h : SameView s t) : s.phase = t.phase :=
  State.phase_congr s t h.err h.configured h.finalized

theorem SamePage.payload_eq (h : SamePage s t) : payload s = payload t := by
  rw [payload, payload, pageHeader, pageHeader, h.blockSize, h.miniBlockCount, h.totalValueCount, h.firstValue,
    h.outputBuffer]

/-- Nothing is shown of the page in phase FAULT. -/
theorem SameFlags.withErr (h : SameFlags s t) (c : FaultCode) : SameView (s.withErr c) (t.withErr c) :=
  SameFlags.sameView ⟨rfl, h.configured, h.finalized, h.extraSlots, h.outCap⟩ fun herr => absurd herr c.code_ne_zero

/-! ### The updates keep the view -/

theorem SamePage.clearPage (hbs : s.blockSize = t.blockSize) (hmc : s.miniBlockCount = t.miniBlockCount)
    (hmbs : s.miniBlockSize = t.miniBlockSize) : SamePage s.clearPage t.clearPage := by
  refine ⟨hbs, hmc, hmbs, rfl, rfl, rfl, rfl, rfl, rfl, fun j hj => ?_⟩
  have hj' : j < t.blockSize.toNat := hbs ▸ hj
  exact (read_clearPage_of_lt (s := s) hj).trans (read_clearPage_of_lt hj').symm

theorem SamePage.recordFirst (h : SamePage s t) (x : Word) : SamePage (s.recordFirst x) (t.recordFirst x) :=
  ⟨h.blockSize, h.miniBlockCount, h.miniBlockSize, rfl, rfl, rfl, h.pendingCount, h.minDelta, h.outputBuffer, h.read⟩

theorem SamePage.recordDelta (h : SamePage s t) (x : Word) : SamePage (s.recordDelta x) (t.recordDelta x) := by
  have hdelta : delta s x = delta t x := by rw [delta, delta, h.previousValue]
  refine ⟨h.blockSize, h.miniBlockCount, h.miniBlockSize, ?_, h.firstValue, rfl, ?_, ?_, h.outputBuffer,
    fun j hj => ?_⟩
  · rw [State.recordDelta_totalValueCount, State.recordDelta_totalValueCount, h.totalValueCount]
  · rw [State.recordDelta_pendingCount, State.recordDelta_pendingCount, h.pendingCount]
  · rw [State.recordDelta_minDelta, State.recordDelta_minDelta, h.minDelta, hdelta]
  · rw [read_recordDelta, read_recordDelta, h.pendingCount, hdelta, h.read j hj]

/-- FLUSH_BLOCK's precondition bounds every slot it reads by `BS`. -/
theorem SamePage.flushBytes_eq (h : SamePage s t) (hready : FlushReady s) : flushBytes s = flushBytes t := by
  obtain ⟨-, hbound⟩ := hready
  rw [flushBytes, flushBytes, flushMemory, flushMemory, ← h.minDelta, ← h.pendingCount, ← h.miniBlockCount,
    ← h.miniBlockSize]
  refine blockBytes_congr (fun j hj => ?_) _ _
  rw [Memory.read_subtractMin, Memory.read_subtractMin, h.read j (by omega)]

theorem SamePage.flushReady (h : SamePage s t) (hready : FlushReady s) : FlushReady t := by
  rwa [FlushReady, ← h.pendingCount, ← h.miniBlockSize, ← h.blockSize]

theorem SamePage.flushLength_eq (h : SamePage s t) (hready : FlushReady s) : flushLength s = flushLength t := by
  rw [flushLength, flushLength, ← blockBytes_length, ← blockBytes_length]
  exact congrArg List.length (h.flushBytes_eq hready)

theorem SamePage.afterFlush (h : SamePage s t) (hready : FlushReady s) : SamePage s.afterFlush t.afterFlush := by
  refine ⟨h.blockSize, h.miniBlockCount, h.miniBlockSize, h.totalValueCount, h.firstValue, h.previousValue, ?_, ?_, ?_,
    fun j hj => ?_⟩
  · rw [State.flushedWith_pendingCount, State.flushedWith_pendingCount]
  · rw [State.flushedWith_minDelta, State.flushedWith_minDelta]
  · rw [State.flushedWith_outputBuffer, State.flushedWith_outputBuffer, h.outputBuffer, h.flushBytes_eq hready]
  · rw [State.flushedWith_pd, State.flushedWith_pd, Memory.read_subtractMin, Memory.read_subtractMin, h.pendingCount,
      h.minDelta, h.read j hj]

end

/-! ### Side by side through a command -/

/-- Where `r` answers a next state, so does `r'`, with the same view and the same beats added to those of `s` and
`t`. -/
def SameAnswers (s t : State) (r r' : Result) : Prop :=
  ∀ s', r = .next s' → ∃ t', r' = .next t' ∧ SameView s' t' ∧
    ∃ rsp pay, s'.rspQueue = s.rspQueue ++ rsp ∧ t'.rspQueue = t.rspQueue ++ rsp ∧
      s'.payQueue = s.payQueue ++ pay ∧ t'.payQueue = t.payQueue ++ pay

/-- `u` offers the beats that `s` offers. -/
def SameOffers (s u : State) : Prop := u.rspQueue = s.rspQueue ∧ u.payQueue = s.payQueue

section
variable {s t u v : State}

theorem sameAnswers_withResponse (p : Option (List Byte)) (h : SameView u v) (hu : SameOffers s u)
    (hv : SameOffers t v) : SameAnswers s t (.next (u.withResponse p)) (.next (v.withResponse p)) := by
  rintro _ ⟨⟩
  obtain ⟨hursp, hupay⟩ := hu
  obtain ⟨hvrsp, hvpay⟩ := hv
  refine ⟨_, rfl, ⟨h.err, h.configured, h.finalized, h.extraSlots, h.outCap, h.page⟩, [⟨u.status, p.isSome⟩],
    payBeats (p.getD []), ?_, ?_, ?_, ?_⟩
  · rw [State.withResponse_rspQueue, hursp]
  · rw [State.withResponse_rspQueue, hvrsp, h.status_eq]
  · rw [State.withResponse_payQueue, hupay]
  · rw [State.withResponse_payQueue, hvpay]

theorem sameAnswers_raise (c : FaultCode) (h : SameFlags u v) (hu : SameOffers s u) (hv : SameOffers t v) :
    SameAnswers s t (raise c u) (raise c v) :=
  sameAnswers_withResponse (u := u.withErr c) (v := v.withErr c) none (h.withErr c) hu hv

theorem sameAnswers_flushBlock {rest : State → Result} (hflags : SameFlags u v) (hpage : SamePage u v)
    (hu : SameOffers s u) (hv : SameOffers t v)
    (hrest : SamePage u.afterFlush v.afterFlush → SameAnswers s t (rest u.afterFlush) (rest v.afterFlush)) :
    SameAnswers s t ((flushBlock u).andThen rest) ((flushBlock v).andThen rest) := by
  obtain ⟨-, f, hr⟩ | ⟨hready, hfits, hr⟩ | ⟨hready, hfits, hr⟩ := flushBlock_cases u
  · rw [hr]
    exact nofun
  · rw [hpage.flushLength_eq hready, hpage.outputBuffer, hflags.outCap] at hfits
    rw [hr, flushBlock_of_fits (hpage.flushReady hready) hfits]
    exact hrest (hpage.afterFlush hready)
  · rw [hpage.flushLength_eq hready, hpage.outputBuffer, hflags.outCap] at hfits
    rw [hr, flushBlock_of_not_fits (hpage.flushReady hready) hfits]
    exact sameAnswers_raise (u := u.loseData) (v := v.loseData) .resource
      ⟨hflags.err, hflags.configured, hflags.finalized, hflags.extraSlots, hflags.outCap⟩ hu hv

/-- The guard reads the phase alone. -/
theorem sameAnswers_guarded {i : Instr} {run : State → Result} (h : SameView s t)
    (hrun : s.err = 0 → runsIn i s.phase = true → SameAnswers s t (run s) (run t)) :
    SameAnswers s t (guarded i run s) (guarded i run t) := by
  obtain ⟨herr, hr⟩ | ⟨herr, hphase, hr⟩ | ⟨herr, hphase, hr⟩ := guarded_cases i run s <;> rw [hr]
  · rw [guarded_faulted i run (h.err ▸ herr)]
    exact sameAnswers_withResponse none h ⟨rfl, rfl⟩ ⟨rfl, rfl⟩
  · rw [guarded_illegal run (h.err ▸ herr) (h.phase_eq ▸ hphase)]
    exact sameAnswers_raise .protocol h.flags ⟨rfl, rfl⟩ ⟨rfl, rfl⟩
  · rw [guarded_run run (h.err ▸ herr) (h.phase_eq ▸ hphase)]
    exact hrun herr hphase

/-- CONFIG reads the depth alone, and writes all that the view shows of an open page. -/
theorem sameAnswers_configure (bs mc : Word) (h : SameView s t) :
    SameAnswers s t (configure bs mc s) (configure bs mc t) := by
  unfold configure
  rw [← h.extraSlots]
  split
  · refine sameAnswers_withResponse (u := (s.withConfig bs mc).clearPage) (v := (t.withConfig bs mc).clearPage) none ?_
      ⟨rfl, rfl⟩ ⟨rfl, rfl⟩
    exact SameFlags.sameView ⟨h.err, rfl, rfl, h.extraSlots, h.outCap⟩ fun _ _ => SamePage.clearPage rfl rfl rfl
  · exact sameAnswers_raise .config h.flags ⟨rfl, rfl⟩ ⟨rfl, rfl⟩

theorem sameAnswers_acceptValue (x : Word) (h : SameFlags s t) (hpage : SamePage s t) :
    SameAnswers s t (acceptValue x s) (acceptValue x t) := by
  have hflags : SameFlags (s.recordDelta x) (t.recordDelta x) :=
    ⟨h.err, h.configured, h.finalized, h.extraSlots, h.outCap⟩
  unfold acceptValue closeBlock
  rw [← hpage.totalValueCount, ← hpage.pendingCount, ← hpage.blockSize]
  split
  · exact sameAnswers_raise .resource h ⟨rfl, rfl⟩ ⟨rfl, rfl⟩
  split
  · refine sameAnswers_withResponse (u := s.recordFirst x) (v := t.recordFirst x) none ?_ ⟨rfl, rfl⟩ ⟨rfl, rfl⟩
    exact SameFlags.sameView ⟨h.err, h.configured, h.finalized, h.extraSlots, h.outCap⟩ fun _ _ => hpage.recordFirst x
  split
  · exact nofun
  have hrecord := hpage.recordDelta x
  rw [← hrecord.pendingCount, ← hrecord.blockSize]
  split
  · refine sameAnswers_flushBlock hflags hrecord ⟨rfl, rfl⟩ ⟨rfl, rfl⟩ fun hflushed => ?_
    exact sameAnswers_withResponse none (SameFlags.sameView
      ⟨h.err, h.configured, h.finalized, h.extraSlots, h.outCap⟩ fun _ _ => hflushed) ⟨rfl, rfl⟩ ⟨rfl, rfl⟩
  · exact sameAnswers_withResponse none (hflags.sameView fun _ _ => hrecord) ⟨rfl, rfl⟩ ⟨rfl, rfl⟩

/-- The end of a FINISH that ran: flag, response, payload. -/
theorem sameAnswers_closePage (h : SameFlags u v) (hpage : SamePage u v) (hu : SameOffers s u) (hv : SameOffers t v) :
    SameAnswers s t (closePage u) (closePage v) := by
  have hclosed : SamePage u.withFinalized v.withFinalized :=
    ⟨hpage.blockSize, hpage.miniBlockCount, hpage.miniBlockSize, hpage.totalValueCount, hpage.firstValue,
      hpage.previousValue, hpage.pendingCount, hpage.minDelta, hpage.outputBuffer, hpage.read⟩
  rw [closePage, closePage, hclosed.payload_eq]
  exact sameAnswers_withResponse _ (SameFlags.sameView
    ⟨h.err, h.configured, rfl, h.extraSlots, h.outCap⟩ fun _ _ => hclosed) hu hv

theorem sameAnswers_finishPage (h : SameFlags s t) (hpage : SamePage s t) :
    SameAnswers s t (finishPage s) (finishPage t) := by
  unfold finishPage
  rw [← h.finalized, ← hpage.pendingCount, ← hpage.payload_eq]
  split
  · exact sameAnswers_withResponse _ (h.sameView fun _ _ => hpage) ⟨rfl, rfl⟩ ⟨rfl, rfl⟩
  split
  · refine sameAnswers_flushBlock h hpage ⟨rfl, rfl⟩ ⟨rfl, rfl⟩ fun hflushed => ?_
    exact sameAnswers_closePage ⟨h.err, h.configured, h.finalized, h.extraSlots, h.outCap⟩ hflushed ⟨rfl, rfl⟩
      ⟨rfl, rfl⟩
  · exact sameAnswers_closePage h hpage ⟨rfl, rfl⟩ ⟨rfl, rfl⟩

theorem sameAnswers_exec (i : Instr) (h : SameView s t) : SameAnswers s t (exec i s) (exec i t) := by
  cases i with
  | config bs mc => exact sameAnswers_guarded h fun _ _ => sameAnswers_configure bs mc h
  | write x =>
    refine sameAnswers_guarded (run := acceptValue x) h fun herr hphase => ?_
    obtain ⟨hconf, -⟩ : s.configured = true ∧ s.finalized = false := by simpa [runsIn_write x s herr] using hphase
    exact sameAnswers_acceptValue x h.flags (h.samePage herr hconf)
  | finish =>
    refine sameAnswers_guarded (run := finishPage) h fun herr hphase => ?_
    rw [runsIn_finish s herr] at hphase
    exact sameAnswers_finishPage h.flags (h.samePage herr hphase)
  | reset =>
    refine sameAnswers_guarded (run := fun u => respond u.clearPage) h fun herr hphase => ?_
    rw [runsIn_reset s herr] at hphase
    have hpage := h.samePage herr hphase
    exact sameAnswers_withResponse (u := s.clearPage) (v := t.clearPage) none (SameFlags.sameView
      ⟨h.err, h.configured, rfl, h.extraSlots, h.outCap⟩
      fun _ _ => .clearPage hpage.blockSize hpage.miniBlockCount hpage.miniBlockSize) ⟨rfl, rfl⟩ ⟨rfl, rfl⟩

theorem sameAnswers_reservedWord (h : SameView s t) : SameAnswers s t (reservedWord s) (reservedWord t) := by
  unfold reservedWord
  rw [← h.phase_eq]
  split
  · exact sameAnswers_withResponse none h ⟨rfl, rfl⟩ ⟨rfl, rfl⟩
  · exact sameAnswers_raise .illegal h.flags ⟨rfl, rfl⟩ ⟨rfl, rfl⟩

end

/-- Settles O42: the two blocks decode the same word, and both its meaning and the fault of a reserved word go side by
side. -/
theorem unspecifiedStateIsUnobservable : Obligations.UnspecifiedStateIsUnobservable := by
  intro s t s' w h hw
  obtain ⟨i, hd, hr⟩ | ⟨r, hd, hr⟩ := runWord_cases w s
  · rw [runWord_of_command t hd]
    exact sameAnswers_exec i h s' (hr.symm.trans hw)
  · rw [runWord_of_reserved t hd]
    exact sameAnswers_reservedWord h s' (hr.symm.trans hw)

end Sys2Proof.Machine
end

section
/-! SUPPORT. The codecs (spec/43_bitpack.md, spec/44_varint.md): packed lanes as digits of a number, varints as a loop
over base-128 digits, zig-zag as an arithmetic formula; each with the reader of the consumer contract as its inverse. -/

namespace Sys2Proof.Machine

/-! ### Packed lanes are digits in base 2^w -/

theorem packFields_lt (w : Nat) (vs : List Word) : packFields w vs < 2 ^ (vs.length * w) := by
  induction vs with
  | nil => simp [packFields]
  | cons v vs ih =>
    have hlow : v.toNat % 2 ^ w < 2 ^ w := Nat.mod_lt _ (Nat.two_pow_pos w)
    calc v.toNat % 2 ^ w + 2 ^ w * packFields w vs
        < 2 ^ w * (packFields w vs + 1) := by rw [Nat.mul_succ]; omega
      _ ≤ 2 ^ w * 2 ^ (vs.length * w) := Nat.mul_le_mul_left _ ih
      _ = 2 ^ ((v :: vs).length * w) := by rw [List.length_cons, Nat.succ_mul, Nat.add_comm, Nat.pow_add]

/-- Lane `k` is the digit number `k` (spec/43_bitpack.md R98). -/
theorem packFields_digit (w : Nat) (vs : List Word) (k : Nat) :
    packFields w vs / 2 ^ (k * w) % 2 ^ w = (vs.getD k 0).toNat % 2 ^ w := by
  induction vs generalizing k with
  | nil => simp [packFields]
  | cons v vs ih =>
    rw [packFields]
    cases k with
    | zero => simp
    | succ k =>
      have hhigh : (v.toNat % 2 ^ w + 2 ^ w * packFields w vs) / 2 ^ w = packFields w vs := by
        rw [Nat.add_mul_div_left _ _ (Nat.two_pow_pos w), Nat.div_eq_of_lt (Nat.mod_lt _ (Nat.two_pow_pos w)),
          Nat.zero_add]
      rw [Nat.succ_mul, Nat.add_comm (k * w), Nat.pow_add, ← Nat.div_div_eq_div_mul, hhigh, ih k, List.getD_cons_succ]

/-- Bit `b` of lane `k` is bit `k*w + b` of the number (spec/43_bitpack.md R94). -/
theorem packFields_testBit {w b : Nat} (vs : List Word) (k : Nat) (hb : b < w) :
    (packFields w vs).testBit (k * w + b) = (vs.getD k 0).getLsbD b := by
  have hbit (x : Nat) : (x % 2 ^ w).testBit b = x.testBit b := by rw [Nat.testBit_mod_two_pow]; simp [hb]
  rw [Nat.add_comm, ← Nat.testBit_div_two_pow, ← hbit, packFields_digit, hbit]
  rfl

/-! ### The bytes of a number -/

theorem leNumber_leBytes (k g : Nat) : leNumber (leBytes k g) = g % 256 ^ k := by
  induction k generalizing g with
  | zero => simp [leBytes, leNumber, Nat.mod_one]
  | succ k ih =>
    have hbyte : (BitVec.ofNat 8 g).toNat = g % 256 := BitVec.toNat_ofNat g 8
    rw [leBytes, leNumber, ih, hbyte, Nat.pow_succ', Nat.mod_mul]

theorem leBytes_getD {k i : Nat} (g : Nat) (hi : i < k) : (leBytes k g).getD i 0 = BitVec.ofNat 8 (g / 256 ^ i) := by
  induction k generalizing g i with
  | zero => omega
  | succ k ih =>
    cases i with
    | zero => simp [leBytes]
    | succ i =>
      rw [leBytes, List.getD_cons_succ, ih (g / 256) (by omega), Nat.div_div_eq_div_mul, ← Nat.pow_succ']

/-- Bit `n` of the number is bit `n mod 8` of byte `n div 8`. -/
theorem leBytes_getLsbD {k n : Nat} (g : Nat) (hn : n < 8 * k) :
    ((leBytes k g).getD (n / 8) 0).getLsbD (n % 8) = g.testBit n := by
  have hmod : n % 8 < 8 := Nat.mod_lt _ (by decide)
  have hpow : 256 ^ (n / 8) = 2 ^ (8 * (n / 8)) := by rw [Nat.pow_mul]
  rw [leBytes_getD g (by omega), BitVec.getLsbD_ofNat, decide_eq_true hmod, Bool.true_and, hpow,
    Nat.testBit_div_two_pow, Nat.mod_add_div]

/-! ### PACK8 -/

/-- Settles O33: a lane's bit is a bit of the packed number, and that is a bit of its bytes. -/
theorem pack8BitLayout : Obligations.Pack8BitLayout := by
  intro w v0 v1 v2 v3 v4 v5 v6 v7 _
  refine ⟨leBytes_length _ _, fun k b hk hb => ?_⟩
  have hn : k * w + b < 8 * w := by
    have hle : (k + 1) * w ≤ 8 * w := Nat.mul_le_mul_right w hk
    rw [Nat.succ_mul] at hle
    omega
  rw [pack8, leBytes_getLsbD _ hn, packFields_testBit _ _ hb]

/-- Reading a group of eight lanes back from its bytes gives each lane cut to the width. -/
theorem unpack8_leBytes (w : Nat) {vs : List Word} (hlen : vs.length = 8) :
    unpack8 w (leBytes w (packFields w vs)) = vs.map fun v => BitVec.ofNat 32 (v.toNat % 2 ^ w) := by
  have hnumber : leNumber (leBytes w (packFields w vs)) = packFields w vs := by
    have hlt := packFields_lt w vs
    rw [hlen, Nat.pow_mul] at hlt
    rw [leNumber_leBytes]
    exact Nat.mod_eq_of_lt hlt
  refine List.ext_getElem (by simp [unpack8, hlen]) fun k hk hk' => ?_
  rw [List.length_map] at hk'
  simp only [unpack8, unpackLane, hnumber, packFields_digit, List.getElem_map, List.getElem_range,
    List.getD_eq_getElem _ _ hk']

/-- Settles O34: the eight lanes are the digits of the packed number. -/
theorem unpackInvertsPack8 : Obligations.UnpackInvertsPack8 := by
  intro w v0 v1 v2 v3 v4 v5 v6 v7 _
  exact unpack8_leBytes w rfl

/-! ### UVARINT32 -/

/-- The reader inverts the loop where the number fits its bytes. -/
theorem readVarint_uvarintLoop {k x : Nat} (hx : x < 128 ^ (k + 1)) (rest : List Byte) :
    readVarint (uvarintLoop k x ++ rest) = some (x, rest) := by
  have hlast {x : Nat} (hx : x < 128) : readVarint ([BitVec.ofNat 8 x] ++ rest) = some (x, rest) := by
    have hbyte : (BitVec.ofNat 8 x).toNat = x := by rw [BitVec.toNat_ofNat]; omega
    rw [List.singleton_append, readVarint, if_pos (by omega), hbyte]
  induction k generalizing x with
  | zero => exact hlast hx
  | succ k ih =>
    rw [uvarintLoop]
    split
    · next hmore =>
      have hbyte : (BitVec.ofNat 8 (x % 128 + 128)).toNat = x % 128 + 128 := by rw [BitVec.toNat_ofNat]; omega
      have hrest : x / 128 < 128 ^ (k + 1) := by
        rw [Nat.div_lt_iff_lt_mul (by decide), ← Nat.pow_succ]
        exact hx
      have hsum : (x % 128 + 128) % 128 + 128 * (x / 128) = x := by omega
      rw [List.cons_append, readVarint, if_neg (by omega), ih hrest, hbyte, Option.map_some, hsum]
    · exact hlast (by omega)

theorem readVarint_uvarint32 (x : Word) (rest : List Byte) : readVarint (uvarint32 x ++ rest) = some (x.toNat, rest) :=
  readVarint_uvarintLoop (k := 4) (lt_of_lt_of_le x.isLt (by decide)) rest

theorem uvarintLoop_ne_nil (k x : Nat) : uvarintLoop k x ≠ [] := by
  cases k with
  | zero => simp [uvarintLoop]
  | succ k =>
    rw [uvarintLoop]
    split <;> simp

/-- Each byte more makes the numbers that fit 128 times as many (spec/44_varint.md R100). -/
theorem uvarintLoop_length_le_iff {k n : Nat} (x : Nat) (hn : n < k) :
    (uvarintLoop k x).length ≤ n + 1 ↔ x < 128 ^ (n + 1) := by
  induction k generalizing x n with
  | zero => omega
  | succ k ih =>
    rw [uvarintLoop]
    split
    · next hmore =>
      rw [List.length_cons, Nat.add_le_add_iff_right]
      cases n with
      | zero =>
        have hpos := List.length_pos_iff.mpr (uvarintLoop_ne_nil k (x / 128))
        omega
      | succ n => rw [ih (x / 128) (by omega), Nat.div_lt_iff_lt_mul (by decide), ← Nat.pow_succ]
    · next hfew =>
      have hpow : 128 ≤ 128 ^ (n + 1) := Nat.le_self_pow (by omega) 128
      simp only [List.length_singleton]
      omega

theorem uvarintLoop_length_le (k x : Nat) : (uvarintLoop k x).length ≤ k + 1 := by
  induction k generalizing x with
  | zero => simp [uvarintLoop]
  | succ k ih =>
    rw [uvarintLoop]
    split
    · exact Nat.succ_le_succ (ih _)
    · simp

/-- The shortest form ends in a byte that is not zero, but for 0 itself (spec/44_varint.md R101). -/
theorem uvarintLoop_getLast {k x : Nat} (hx : x < 128 ^ (k + 1)) : (uvarintLoop k x).getLast? = some 0 ↔ x = 0 := by
  have hlast {x : Nat} (hx : x < 128) : [BitVec.ofNat 8 x].getLast? = some 0 ↔ x = 0 := by
    rw [List.getLast?_singleton, Option.some_inj]
    bv_omega
  induction k generalizing x with
  | zero => exact hlast hx
  | succ k ih =>
    rw [uvarintLoop]
    split
    · next hmore =>
      have hrest : x / 128 < 128 ^ (k + 1) := by
        rw [Nat.div_lt_iff_lt_mul (by decide), ← Nat.pow_succ]
        exact hx
      rw [List.getLast?_cons_of_ne_nil (uvarintLoop_ne_nil _ _)]
      exact (ih hrest).trans (by omega)
    · exact hlast (by omega)

/-- Settles O35: each length of the table is the least that fits, and every number of 32 bits fits five bytes. -/
theorem varintIsShortestAndReadsBack : Obligations.VarintIsShortestAndReadsBack := by
  intro x rest
  refine ⟨readVarint_uvarint32 x rest, ?_, ?_⟩
  · have h1 := uvarintLoop_length_le_iff (k := 4) (n := 0) x.toNat (by decide)
    have h2 := uvarintLoop_length_le_iff (k := 4) (n := 1) x.toNat (by decide)
    have h3 := uvarintLoop_length_le_iff (k := 4) (n := 2) x.toNat (by decide)
    have h4 := uvarintLoop_length_le_iff (k := 4) (n := 3) x.toNat (by decide)
    have h5 := uvarintLoop_length_le 4 x.toNat
    have hpos := uvarint32_length_pos x
    unfold uvarint32 at hpos ⊢
    split_ifs <;> omega
  · have hlast := uvarintLoop_getLast (k := 4) (lt_of_lt_of_le x.isLt (by decide))
    rw [uvarint32, hlast]
    bv_omega

/-! ### ZIGZAG32 -/

/-- For a value that is not negative the arithmetic shift gives 0. -/
theorem zigzag32_of_msb_false {x : Word} (h : x.msb = false) : zigzag32 x = x <<< 1 := by
  have hshift : x >>> 31 = 0 := by
    have hlt := BitVec.msb_eq_false_iff_two_mul_lt.mp h
    apply BitVec.eq_of_toNat_eq
    rw [BitVec.toNat_ushiftRight, Nat.shiftRight_eq_div_pow]
    exact Nat.div_eq_of_lt (by omega)
  rw [zigzag32, BitVec.sshiftRight_eq_of_msb_false h, hshift]
  exact BitVec.xor_zero

/-- For a negative value it gives ones, which complement. -/
theorem zigzag32_of_msb_true {x : Word} (h : x.msb = true) : zigzag32 x = ~~~(x <<< 1) := by
  have hshift : ~~~x >>> 31 = 0 := by
    have hle := BitVec.msb_eq_true_iff_two_mul_ge.mp h
    apply BitVec.eq_of_toNat_eq
    rw [BitVec.toNat_ushiftRight, Nat.shiftRight_eq_div_pow, BitVec.toNat_not]
    exact Nat.div_eq_of_lt (by omega)
  rw [zigzag32, BitVec.sshiftRight_eq_of_msb_true h, hshift]
  exact BitVec.xor_allOnes

theorem toNat_shiftLeft_one (x : Word) : (x <<< 1).toNat = 2 * x.toNat % 2 ^ 32 := by
  rw [BitVec.toNat_shiftLeft, Nat.shiftLeft_eq, Nat.mul_comm]

/-- The formula of spec/44_varint.md R102 on i32 values. -/
theorem zigzag32_toNat (x : Word) :
    ((zigzag32 x).toNat : Int) = if 0 ≤ x.toInt then 2 * x.toInt else -2 * x.toInt - 1 := by
  have hlt := x.isLt
  have hsign := BitVec.toInt_eq_msb_cond x
  cases hmsb : x.msb with
  | false =>
    have hlow := BitVec.msb_eq_false_iff_two_mul_lt.mp hmsb
    rw [hmsb, if_neg (by decide)] at hsign
    rw [zigzag32_of_msb_false hmsb, toNat_shiftLeft_one, if_pos (by omega)]
    omega
  | true =>
    have hhigh := BitVec.msb_eq_true_iff_two_mul_ge.mp hmsb
    rw [hmsb, if_pos rfl] at hsign
    rw [zigzag32_of_msb_true hmsb, BitVec.toNat_not, toNat_shiftLeft_one, if_neg (by omega)]
    omega

/-- Even patterns stand for the values that are not negative (spec/44_varint.md R103). -/
theorem unzigzag_toInt (z : Word) :
    (unzigzag z).toInt = if z.toNat % 2 = 0 then (z.toNat : Int) / 2 else -((z.toNat : Int) / 2) - 1 := by
  have hlt := z.isLt
  have hhalf : (z >>> 1).toNat = z.toNat / 2 := by
    rw [BitVec.toNat_ushiftRight, Nat.shiftRight_eq_div_pow, Nat.pow_one]
  have hbit : (z &&& 1).toNat = z.toNat % 2 := by
    rw [BitVec.toNat_and]
    exact Nat.and_one_is_mod _
  rw [unzigzag]
  split
  · next heven =>
    have hzero : z &&& 1 = 0#32 := BitVec.eq_of_toNat_eq (hbit.trans heven)
    rw [hzero, BitVec.neg_zero, BitVec.xor_zero, BitVec.toInt_eq_toNat_of_lt (by omega), hhalf]
    rfl
  · next hodd =>
    have hone : z &&& 1 = 1 := BitVec.eq_of_toNat_eq (hbit.trans (by rw [Nat.mod_two_ne_zero.mp hodd]; rfl))
    have hones : -(1 : Word) = BitVec.allOnes 32 := by decide
    rw [hone, hones, BitVec.xor_allOnes, BitVec.toInt_eq_toNat_cond, BitVec.toNat_not, hhalf, if_neg (by omega)]
    omega

/-- Settles O36: on i32 readings the formula and the reader's inverse undo each other, by parity. -/
theorem zigzagFormula : Obligations.ZigzagFormula := by
  refine ⟨zigzag32_toNat, fun x => ?_, fun z => ?_⟩
  · apply BitVec.eq_of_toInt_eq
    have hz := zigzag32_toNat x
    have hlo : -2 ^ 31 ≤ x.toInt := BitVec.le_toInt x
    have hhi : x.toInt < 2 ^ 31 := BitVec.toInt_lt
    rw [unzigzag_toInt]
    split at hz <;> split <;> omega
  · apply BitVec.eq_of_toNat_eq
    have hz := zigzag32_toNat (unzigzag z)
    have hlt := z.isLt
    rw [unzigzag_toInt] at hz
    split at hz <;> split at hz <;> omega

theorem unzigzag_zigzag32 (x : Word) : unzigzag (zigzag32 x) = x := by
  obtain ⟨-, hinverse, -⟩ := zigzagFormula
  exact hinverse x

/-! ### The payload -/

/-- `pay_last` goes with the last byte (spec/30_encoding.md R64). -/
theorem payBeats_last (bs : List Byte) (k : Nat) (hk : k < (payBeats bs).length) :
    (payBeats bs)[k].last = decide (k + 1 = bs.length) := by
  induction bs generalizing k with
  | nil => simp [payBeats] at hk
  | cons b bs ih =>
    cases bs with
    | nil =>
      have hzero : k = 0 := by simpa [payBeats] using hk
      subst hzero
      rfl
    | cons c cs =>
      cases k with
      | zero => simp [payBeats]
      | succ k => simpa [payBeats] using ih k (by simpa [payBeats] using hk)

theorem payload_eq_append (s : State) :
    payload s = uvarint32 s.blockSize ++ (uvarint32 s.miniBlockCount ++ (uvarint32 s.totalValueCount ++
      (uvarint32 s.firstValue ++ s.outputBuffer))) := by
  simp only [payload, pageHeader, List.append_assoc]

/-- Settles O39: the four varints of the header are read one after the other, and `output_buffer` is what follows
them. -/
theorem payloadReadsBack : Obligations.PayloadReadsBack := by
  intro s
  refine ⟨four_le_payload_length s, payBeats_data _, fun k hk => payBeats_last _ k hk, ?_⟩
  rw [payload_eq_append]
  exact ⟨_, _, _, readVarint_uvarint32 _ _, readVarint_uvarint32 _ _, readVarint_uvarint32 _ _,
    readVarint_uvarint32 _ _⟩

end Sys2Proof.Machine
end

section
/-! SUPPORT. A flushed block (spec/42_flush_block.md, spec/20_memory.md R43 to R52): its length, the properties of its
deltas, and that the consumer contract reads the pending deltas back from it. -/

namespace Sys2Proof.Machine

/-! ### The length of a block -/

theorem uvarint32_length_le (x : Word) : (uvarint32 x).length ≤ 5 := uvarintLoop_length_le 4 x.toNat

theorem sum_miniBlockWidth_le (m : Memory) (n mbs : Nat) :
    ((List.range (touched n mbs)).map (miniBlockWidth m n mbs)).sum ≤ touched n mbs * 32 := by
  have hle : ∀ w ∈ (List.range (touched n mbs)).map (miniBlockWidth m n mbs), w ≤ 32 := by
    intro w hw
    obtain ⟨i, -, rfl⟩ := List.mem_map.mp hw
    exact miniBlockWidth_le_32 m n mbs i
  simpa using List.sum_le_card_nsmul _ 32 hle

theorem blockLength_eq (least : Word) (m : Memory) (n mc mbs : Nat) :
    blockLength least m n mc mbs = (uvarint32 (zigzag32 least)).length + mc +
      mbs / 8 * ((List.range (touched n mbs)).map (miniBlockWidth m n mbs)).sum := rfl

/-- No block is longer than the capacity plan of spec/70_reset_and_hazards.md reckons. -/
theorem ConfigInv.blockLength_le {s : State} (h : ConfigInv s) (least : Word) (m : Memory) {n : Nat}
    (hn : n ≤ s.blockSize.toNat) :
    blockLength least m n s.miniBlockCount.toNat s.miniBlockSize.toNat ≤
      5 + s.miniBlockCount.toNat + 4 * s.blockSize.toNat := by
  have hmin := uvarint32_length_le (zigzag32 least)
  have hpacked : s.miniBlockSize.toNat / 8 *
      ((List.range (touched n s.miniBlockSize.toNat)).map (miniBlockWidth m n s.miniBlockSize.toNat)).sum ≤
      4 * s.blockSize.toNat :=
    calc s.miniBlockSize.toNat / 8 * _
        ≤ s.miniBlockSize.toNat / 8 * (touched n s.miniBlockSize.toNat * 32) :=
          Nat.mul_le_mul_left _ (sum_miniBlockWidth_le _ _ _)
      _ ≤ s.miniBlockSize.toNat / 8 * (s.miniBlockCount.toNat * 32) :=
          Nat.mul_le_mul_left _ (Nat.mul_le_mul_right _ (h.touched_le hn))
      _ = 4 * (s.miniBlockCount.toNat * (8 * (s.miniBlockSize.toNat / 8))) := by ring
      _ = 4 * s.blockSize.toNat := by
          rw [Nat.mul_div_cancel' (Nat.dvd_of_mod_eq_zero h.eight_dvd_miniBlockSize), h.count_mul_size]
  rw [blockLength_eq]
  omega

/-- Settles O32: the minimum's varint has 1 to 5 bytes, and no width exceeds 32. -/
theorem blockLengthBounds : Obligations.BlockLengthBounds := by
  intro s least m n h _ hn mc mbs
  have hmin := uvarint32_length_pos (zigzag32 least)
  refine ⟨blockBytes_length _ _ _ _ _, ?_, h.blockLength_le least m hn⟩
  rw [blockLength_eq]
  omega

/-! ### The properties of a flushed block -/

/-- Settles O31: subtraction of the least delta wraps nowhere, and a width is the least that fits its valid slots. -/
theorem flushedBlockProperties : Obligations.FlushedBlockProperties := by
  intro s t hconf _ _ hleast hone ht n mbs w
  obtain ⟨-, -, hexact⟩ := minSubtraction s t ht
  obtain rfl := eq_flushedWith_of_flushBlock ht
  have hmbs := hconf.miniBlockSize_pos
  refine ⟨fun j hj => ⟨Int.sub_nonneg.mpr (hleast j hj), hexact hleast j hj⟩, ?_, fun i hi => ?_,
    miniBlockWidth_le_32 _ n mbs⟩
  · obtain ⟨j, hj, hread⟩ := hone
    refine ⟨j, hj, ?_⟩
    rw [State.flushedWith_pd, Memory.read_subtractMin, if_pos hj, hread]
    exact sub_self _
  · have hwidth (b : Nat) : w i ≤ b ↔ ∀ j, i * mbs ≤ j → j < min ((i + 1) * mbs) n →
        ((flushMemory s).read j).toNat < 2 ^ b := by
      simp only [lt_min_iff, and_imp]
      exact miniBlockWidth_le_iff _ hmbs ((lt_touched_iff hmbs i).mp hi) b
    refine ⟨(hwidth _).mp le_rfl, fun hpos => ?_, ?_⟩
    · have hnot := mt (hwidth (w i - 1)).mpr (by omega)
      push Not at hnot
      exact hnot
    · have hzero (x : Word) : x.toNat < 2 ^ 0 ↔ x = 0 := by bv_omega
      rw [← Nat.le_zero, hwidth 0]
      simp only [hzero]
      rfl

/-! ### Reading packed groups back -/

/-- A lane as it comes back from `w` bits. -/
def cutTo (w : Nat) (v : Word) : Word := BitVec.ofNat 32 (v.toNat % 2 ^ w)

theorem cutTo_of_lt {w : Nat} {v : Word} (h : v.toNat < 2 ^ w) : cutTo w v = v := by
  rw [cutTo, Nat.mod_eq_of_lt h, BitVec.ofNat_toNat, BitVec.setWidth_eq]

theorem unpack8_packGroup (m : Memory) (w base : Nat) :
    unpack8 w (packGroup m w base) = (List.range 8).map fun k => cutTo w (m.read (base + k)) :=
  unpack8_leBytes w (vs := (List.range 8).map fun k => m.read (base + k)) rfl

theorem readGroups_packGroup (m : Memory) (w : Nat) (bases : List Nat) (rest : List Byte) :
    readGroups w bases.length (bases.flatMap (packGroup m w) ++ rest) =
      some (bases.flatMap fun base => (List.range 8).map fun k => cutTo w (m.read (base + k)), rest) := by
  induction bases with
  | nil => rfl
  | cons base bases ih =>
    have hlen := packGroup_length m w base
    have henough : ¬ (packGroup m w base ++ (bases.flatMap (packGroup m w) ++ rest)).length < w := by
      rw [List.length_append, hlen]
      omega
    rw [List.flatMap_cons, List.append_assoc, List.length_cons, readGroups, if_neg henough, List.drop_left' hlen,
      List.take_left' hlen, ih, unpack8_packGroup, Option.map_some, List.flatMap_cons]

/-- Rows of `b` indices, one after the other, are the indices below `a * b`. -/
theorem flatMap_range_mul {α : Type} (f : Nat → α) (a b : Nat) :
    ((List.range a).flatMap fun i => (List.range b).map fun k => f (i * b + k)) = (List.range (a * b)).map f := by
  induction a with
  | zero => simp
  | succ a ih =>
    rw [List.range_succ, List.flatMap_append, ih, List.flatMap_singleton, Nat.succ_mul, List.range_add, List.map_append,
      List.map_map]
    rfl

theorem readGroups_packMiniBlock (m : Memory) {n mbs : Nat} (hmbs : mbs % 8 = 0) (i : Nat) (rest : List Byte) :
    readGroups (miniBlockWidth m n mbs i) (mbs / 8) (packMiniBlock m n mbs i ++ rest) =
      some ((List.range mbs).map fun k => cutTo (miniBlockWidth m n mbs i) (m.read (i * mbs + k)), rest) := by
  have hread := readGroups_packGroup m (miniBlockWidth m n mbs i) ((List.range (mbs / 8)).map (groupBase mbs i)) rest
  have hslots := flatMap_range_mul (fun k => cutTo (miniBlockWidth m n mbs i) (m.read (i * mbs + k))) (mbs / 8) 8
  rw [List.length_map, List.length_range, List.flatMap_map, List.flatMap_map] at hread
  rw [Nat.div_mul_cancel (Nat.dvd_of_mod_eq_zero hmbs)] at hslots
  rw [← hslots]
  simpa only [packMiniBlock, groupBase, Nat.add_assoc, Nat.mul_comm] using hread

/-- Each width is read back from its byte, and with it the slots of its mini-block. -/
theorem readMiniBlocks_packMiniBlock (m : Memory) {n mbs : Nat} (hmbs : mbs % 8 = 0) (is : List Nat)
    (rest : List Byte) :
    readMiniBlocks (mbs / 8) (is.map fun i => BitVec.ofNat 8 (miniBlockWidth m n mbs i))
        (is.flatMap (packMiniBlock m n mbs) ++ rest) =
      some (is.flatMap fun i => (List.range mbs).map fun k => cutTo (miniBlockWidth m n mbs i) (m.read (i * mbs + k)),
        rest) := by
  induction is with
  | nil => rfl
  | cons i is ih =>
    rw [List.map_cons, readMiniBlocks, toNat_ofNat_miniBlockWidth, List.flatMap_cons, List.append_assoc,
      readGroups_packMiniBlock m hmbs, Option.bind_some, ih, Option.map_some, List.flatMap_cons]

/-! ### Reading a block back -/

/-- A valid slot comes back whole: it fits the width of its mini-block. -/
theorem cutTo_miniBlockWidth (m : Memory) {n mbs j : Nat} (hmbs : 0 < mbs) (hj : j < n) :
    cutTo (miniBlockWidth m n mbs (j / mbs)) (m.read j) = m.read j := by
  have hlow : j / mbs * mbs ≤ j := Nat.div_mul_le_self j mbs
  have hhigh : j < (j / mbs + 1) * mbs := by
    rw [Nat.mul_comm]
    exact Nat.lt_mul_div_succ j hmbs
  exact cutTo_of_lt ((miniBlockWidth_le_iff m hmbs (by omega) _).mp le_rfl j hlow hhigh hj)

/-- The slots of the touched mini-blocks, cut to the first `n`: the pad slots are beyond them (spec/20_memory.md
R51). -/
theorem take_slots (m : Memory) {n mbs : Nat} (hmbs : 0 < mbs) :
    (((List.range (touched n mbs)).flatMap fun i =>
        (List.range mbs).map fun k => cutTo (miniBlockWidth m n mbs i) (m.read (i * mbs + k))).take n) =
      (List.range n).map m.read := by
  have hrow : ∀ i k, k < mbs → (i * mbs + k) / mbs = i := fun i k hk => by
    rw [Nat.mul_comm, Nat.mul_add_div hmbs, Nat.div_eq_of_lt hk, Nat.add_zero]
  have hflat := flatMap_range_mul (fun j => cutTo (miniBlockWidth m n mbs (j / mbs)) (m.read j)) (touched n mbs) mbs
  have hn : n ≤ touched n mbs * mbs := (ceilDiv_le_iff n mbs _ hmbs).mp le_rfl
  calc _ = ((List.range (touched n mbs * mbs)).map fun j =>
          cutTo (miniBlockWidth m n mbs (j / mbs)) (m.read j)).take n := by
        rw [← hflat]
        refine congrArg (List.take n) (List.flatMap_congr fun i _ => List.map_congr_left fun k hk => ?_)
        rw [hrow i k (List.mem_range.mp hk)]
    _ = (List.range n).map fun j => cutTo (miniBlockWidth m n mbs (j / mbs)) (m.read j) := by
        rw [← List.map_take, List.take_range, Nat.min_eq_left hn]
    _ = (List.range n).map m.read :=
        List.map_congr_left fun j hj => cutTo_miniBlockWidth m hmbs (List.mem_range.mp hj)

/-- The consumer reads the `n` slots of the packed memory, with the minimum added, and stops where the block ends. -/
theorem readBlock_blockBytes (least : Word) (m : Memory) {n mc mbs : Nat} (hpos : 0 < mbs) (hmbs : mbs % 8 = 0)
    (hle : touched n mbs ≤ mc) (rest : List Byte) :
    readBlock n mc mbs (blockBytes least m n mc mbs ++ rest) =
      some ((List.range n).map fun j => least + m.read j, rest) := by
  have hwlen := widthBytes_length m n mc mbs
  have hbytes : blockBytes least m n mc mbs ++ rest =
      uvarint32 (zigzag32 least) ++ (widthBytes m n mc mbs ++ (packedBytes m n mbs ++ rest)) := by
    simp only [blockBytes, minBytes, List.append_assoc]
  have henough : ¬ (widthBytes m n mc mbs ++ (packedBytes m n mbs ++ rest)).length < mc := by
    rw [List.length_append, hwlen]
    omega
  have hwidths : (widthBytes m n mc mbs).take (ceilDiv n mbs) =
      (List.range (touched n mbs)).map fun i => BitVec.ofNat 8 (miniBlockWidth m n mbs i) := by
    change (widthBytes m n mc mbs).take (touched n mbs) = _
    rw [widthBytes, ← List.map_take, List.take_range, Nat.min_eq_left hle]
  rw [hbytes, readBlock, readVarint_uvarint32, Option.bind_some, if_neg henough, List.take_left' hwlen,
    List.drop_left' hwlen, hwidths, packedBytes, readMiniBlocks_packMiniBlock m hmbs, Option.map_some,
    take_slots m hpos, BitVec.ofNat_toNat, BitVec.setWidth_eq, unzigzag_zigzag32, List.map_map]
  rfl

/-- Of the block in `s`, that is the pending deltas. -/
theorem readBlock_flushBytes {s : State} (h : ConfigInv s) (hn : s.pendingCount.toNat ≤ s.blockSize.toNat)
    (rest : List Byte) :
    readBlock s.pendingCount.toNat s.miniBlockCount.toNat s.miniBlockSize.toNat (flushBytes s ++ rest) =
      some ((List.range s.pendingCount.toNat).map s.pd.read, rest) := by
  have hslots : ((List.range s.pendingCount.toNat).map fun j => s.minDelta + (flushMemory s).read j) =
      (List.range s.pendingCount.toNat).map s.pd.read :=
    List.map_congr_left fun j hj => by
      rw [Memory.read_subtractMin, if_pos (List.mem_range.mp hj)]
      exact add_sub_cancel _ _
  rw [flushBytes, readBlock_blockBytes _ _ h.miniBlockSize_pos h.eight_dvd_miniBlockSize (h.touched_le hn), hslots]

/-- Settles O49: the bytes that the flush appends are those of its block. -/
theorem flushedBlockReadsBack : Obligations.FlushedBlockReadsBack := by
  intro s t h _ hn ht
  obtain rfl := eq_flushedWith_of_flushBlock ht
  exact ⟨flushBytes s, rfl, readBlock_flushBytes h hn⟩

end Sys2Proof.Machine
end

section
/-! SUPPORT. Runs of commands: a page within the capacity plan (spec/70_reset_and_hazards.md R145) and the grammar of
the lifecycle (R137), with an unbounded `output_buffer` where only the count can run out. -/

namespace Sys2Proof.Machine

/-! ### Capacity planning -/

/-- What the plan reckons for one block. -/
def planPerBlock (s : State) : Nat := 5 + s.miniBlockCount.toNat + 4 * s.blockSize.toNat

section
variable {s u : State}

theorem WholeBlocks.length_le {k : Nat} (h : WholeBlocks s k) (hconf : ConfigInv s) :
    s.outputBuffer.length ≤ k * planPerBlock s := by
  obtain ⟨blocks, rfl, hout⟩ := h
  rw [hout, List.length_flatMap]
  have hle : ∀ len ∈ blocks.map fun b : Word × Memory => (blockBytes b.1 b.2 s.blockSize.toNat s.miniBlockCount.toNat
      s.miniBlockSize.toNat).length, len ≤ planPerBlock s := by
    intro len hlen
    obtain ⟨b, -, rfl⟩ := List.mem_map.mp hlen
    rw [blockBytes_length]
    exact hconf.blockLength_le _ _ le_rfl
  simpa using List.sum_le_card_nsmul _ _ hle

/-- A block after `k` whole ones fits where a plan for more than `k * BS` deltas fits. -/
theorem flushFits_of_plan {k deltas : Nat} (hconf : ConfigInv s) (hn : s.pendingCount.toNat ≤ s.blockSize.toNat)
    (hout : s.outputBuffer.length ≤ k * planPerBlock s) (hk : k * s.blockSize.toNat < deltas)
    (hplan : fitsOut s.outCap (ceilDiv deltas s.blockSize.toNat * planPerBlock s) = true) : FlushFits s := by
  have hlen : flushLength s ≤ planPerBlock s := hconf.blockLength_le _ _ hn
  have hblocks : k + 1 ≤ ceilDiv deltas s.blockSize.toNat := (lt_ceilDiv_iff _ _ _ hconf.blockSize_pos).mpr hk
  refine fitsOut_mono hplan ?_
  calc s.outputBuffer.length + flushLength s
      ≤ k * planPerBlock s + planPerBlock s := Nat.add_le_add hout hlen
    _ = (k + 1) * planPerBlock s := (Nat.succ_mul _ _).symm
    _ ≤ _ := Nat.mul_le_mul_right _ hblocks

end

/-- Settles O47: the whole blocks take what the plan reckons at most, and the plan counts the block that is flushed. -/
theorem plannedPageFits : Obligations.PlannedPageFits := by
  intro s h hblocks hopen hzero perBlock
  obtain ⟨herr, hconf, hfin⟩ := (phase_eq_opened s).mp hopen
  have hinv := h.config hconf
  have hpage := h.page herr hconf
  have hrest := hpage.pendingIsRest hzero hfin
  have hsplit := Nat.div_add_mod' (s.totalValueCount.toNat - 1) s.blockSize.toNat
  have hpos := toNat_pos_of_ne_zero hzero
  have hout := (hblocks hopen hzero).length_le hinv
  refine ⟨hout, fun N v hN hlt hplan => ?_, fun hplan => ?_⟩
  · have hmax : s.totalValueCount ≠ 0xFFFFFFFF#32 := by bv_omega
    obtain ⟨u, hcomp⟩ := h.write_completes v hopen hmax fun _ hfull => by
      have hcount := pendingCount_recordDelta_toNat v hpage.pendingBound
      exact flushFits_of_plan (s := s.recordDelta v) (hinv.recordDelta v) (hcount.trans hfull).le hout
        (by rw [State.recordDelta_blockSize]; omega) hplan
    exact ⟨_, hcomp.exec_eq herr, hcomp.err_eq.trans herr⟩
  · obtain ⟨u, hcomp⟩ := h.finish_completes herr hconf fun _ hpending => by
      have hsome := toNat_pos_of_ne_zero hpending
      exact flushFits_of_plan hinv hpage.pendingBound.le hout (by omega) hplan
    exact ⟨_, hcomp.exec_eq herr, hcomp.err_eq.trans herr⟩

/-! ### Command lists -/

theorem execAll_cons_next {i : Instr} {is : List Instr} {s t : State} (h : execAll (i :: is) s = .next t) :
    ∃ u, exec i s = .next u ∧ execAll is u = .next t := by
  rw [execAll] at h
  split at h
  · next u hu => exact ⟨u, hu, h⟩
  · cases h
  · cases h

theorem execAll_cons_of_next {i : Instr} {is : List Instr} {s u : State} (h : exec i s = .next u) :
    execAll (i :: is) s = execAll is u := by
  rw [execAll, h]

theorem execAll_append_of_next {is js : List Instr} {s t : State} (h : execAll is s = .next t) :
    execAll (is ++ js) s = execAll js t := by
  induction is generalizing s with
  | nil =>
    obtain ⟨⟩ := h
    rfl
  | cons i is ih =>
    obtain ⟨u, hu, hrest⟩ := execAll_cons_next h
    rw [List.cons_append, execAll_cons_of_next hu, ih hrest]

/-- A fault recorded stays recorded (spec/60_exceptions.md R121). -/
theorem execAll_err_of_err {is : List Instr} {s t : State} (h : execAll is s = .next t) (herr : s.err ≠ 0) :
    t.err ≠ 0 := by
  induction is generalizing s with
  | nil =>
    obtain ⟨⟩ := h
    exact herr
  | cons i is ih =>
    obtain ⟨u, hu, hrest⟩ := execAll_cons_next h
    rw [exec_of_err i herr] at hu
    obtain ⟨⟩ := hu
    exact ih hrest herr

/-- In a run that ends without a fault the first command completes, and the rest runs on from where it got to. -/
theorem execAll_cons_completes {i : Instr} {is : List Instr} {s t : State} (h : execAll (i :: is) s = .next t)
    (ht : t.err = 0) :
    s.err = 0 ∧ ∃ u v, Completes s i u ∧ v.phase = u.phase ∧ execAll is v = .next t := by
  have herr : s.err = 0 := by
    by_contra hne
    exact execAll_err_of_err h hne ht
  obtain ⟨v, hv, hrest⟩ := execAll_cons_next h
  have hverr : v.err = 0 := by
    by_contra hne
    exact execAll_err_of_err hrest hne ht
  obtain ⟨u, hcomp, rfl⟩ := completesAsListed_exec i herr v hv hverr
  exact ⟨herr, u, _, hcomp, phase_withResponse _, hrest⟩

/-! ### Runs without a fault follow the grammar -/

/-- What may follow a FINISH: `FINISH*`, or `FINISH* RESET` and further pages. -/
def AfterFinish (is : List Instr) : Prop :=
  ∃ n, is = List.replicate n .finish ∨ ∃ js, Pages js ∧ is = List.replicate n .finish ++ .reset :: js

section
variable {is : List Instr}

theorem Pages.reset (h : Pages is) : Pages (.reset :: is) := .more [] is (.finishes 0) h

theorem Pages.write (v : Word) (h : Pages is) : Pages (.write v :: is) := by
  cases h with
  | last is hpage => exact .last _ (.write v _ hpage)
  | more is js hpage hrest => exact .more (.write v :: is) js (.write v _ hpage) hrest

theorem AfterFinish.finish (h : AfterFinish is) : AfterFinish (.finish :: is) := by
  obtain ⟨n, rfl | ⟨js, hpages, rfl⟩⟩ := h
  · exact ⟨n + 1, .inl rfl⟩
  · exact ⟨n + 1, .inr ⟨js, hpages, rfl⟩⟩

theorem AfterFinish.reset (h : Pages is) : AfterFinish (.reset :: is) := ⟨0, .inr ⟨is, h, rfl⟩⟩

theorem AfterFinish.pages (h : AfterFinish is) : Pages is := by
  obtain ⟨n, rfl | ⟨js, hpages, rfl⟩⟩ := h
  · exact .last _ (.finishes n)
  · exact .more _ js (.finishes n) hpages

end

/-- The cell of spec/60_exceptions.md R127 that a command ran in. -/
theorem Completes.runsIn_phase {i : Instr} {s u : State} (herr : s.err = 0) (h : Completes s i u) :
    runsIn i s.phase = true := by
  cases h with
  | config bs mc hconf hvalid => rw [runsIn_config bs mc s herr, hconf]; rfl
  | first v hconf hfin hzero => rw [runsIn_write v s herr, hconf, hfin]; rfl
  | record v hconf hfin hzero hmax hroom => rw [runsIn_write v s herr, hconf, hfin]; rfl
  | fill v hconf hfin hzero hmax hfull hready hfits => rw [runsIn_write v s herr, hconf, hfin]; rfl
  | replay hconf hfin => rw [runsIn_finish s herr, hconf]
  | close hconf hfin hnone => rw [runsIn_finish s herr, hconf]
  | flushClose hconf hfin hpending hready hfits => rw [runsIn_finish s herr, hconf]
  | reset hconf => rw [runsIn_reset s herr, hconf]

theorem grammar_of_execAll {is : List Instr} {s t : State} (h : execAll is s = .next t) (ht : t.err = 0) :
    (s.phase = .opened → Pages is) ∧ (s.phase = .finalized → AfterFinish is) := by
  induction is generalizing s with
  | nil => exact ⟨fun _ => .last [] (.finishes 0), fun _ => ⟨0, .inl rfl⟩⟩
  | cons i is ih =>
    obtain ⟨herr, u, v, hcomp, hv, hrest⟩ := execAll_cons_completes h ht
    obtain ⟨hopened, hfinalized⟩ := ih hrest
    have hruns := hcomp.runsIn_phase herr
    rw [hv, hcomp.phase_eq herr] at hopened hfinalized
    cases i with
    | config bs mc => refine ⟨fun hs => ?_, fun hs => ?_⟩ <;> simp [runsIn, hs] at hruns
    | write x => exact ⟨fun _ => (hopened rfl).write x, fun hs => by simp [runsIn, hs] at hruns⟩
    | finish =>
      have hafter := (hfinalized rfl).finish
      exact ⟨fun _ => hafter.pages, fun _ => hafter⟩
    | reset =>
      have hpages := hopened rfl
      exact ⟨fun _ => hpages.reset, fun _ => .reset hpages⟩

/-! ### The grammar runs without a fault -/

/-- A configured block of the invariant, without a fault, whose buffer is unbounded: only the count can run out. -/
structure UnboundedPage (s : State) : Prop where
  inv : StateInv s
  err : s.err = 0
  configured : s.configured = true
  unbounded : s.outCap = none

section
variable {s u : State} {i : Instr}

theorem Completes.wellFormed (h : Completes s i u) (hconf : s.configured = true) : i.wellFormed = true := by
  cases h with
  | config bs mc hblank hvalid => exact absurd (hblank.symm.trans hconf) (by decide)
  | _ => rfl

theorem UnboundedPage.completes (h : UnboundedPage s) (hcomp : Completes s i u) (p : Option (List Byte)) :
    UnboundedPage (u.withResponse p) where
  inv := (h.inv.completes h.err (hcomp.wellFormed h.configured) hcomp).withResponse p
  err := hcomp.err_eq.trans h.err
  configured := hcomp.configured_of_configured h.configured
  unbounded := (hcomp.keepsInstance p).outCap.trans h.unbounded

theorem UnboundedPage.write_completes (h : UnboundedPage s) (hopen : s.phase = .opened)
    (hmax : s.totalValueCount ≠ 0xFFFFFFFF#32) (v : Word) : ∃ u, Completes s (.write v) u :=
  h.inv.write_completes v hopen hmax fun _ _ => flushFits_of_unbounded h.unbounded

theorem UnboundedPage.finish_completes (h : UnboundedPage s) : ∃ u, Completes s .finish u :=
  h.inv.finish_completes h.err h.configured fun _ _ => flushFits_of_unbounded h.unbounded

theorem UnboundedPage.exec_completes (h : UnboundedPage s) (hcomp : Completes s i u) :
    ∃ t, exec i s = .next t ∧ UnboundedPage t ∧ t.phase = (if i = .finish then .finalized else .opened) :=
  ⟨_, hcomp.exec_eq h.err, h.completes hcomp _, (phase_withResponse _).trans (hcomp.phase_eq h.err)⟩

theorem UnboundedPage.exec_write (h : UnboundedPage s) (hopen : s.phase = .opened)
    (hmax : s.totalValueCount ≠ 0xFFFFFFFF#32) (v : Word) :
    ∃ t, exec (.write v) s = .next t ∧ UnboundedPage t ∧ t.phase = .opened ∧
      t.totalValueCount.toNat = s.totalValueCount.toNat + 1 := by
  obtain ⟨-, hconf, hfin⟩ := (phase_eq_opened s).mp hopen
  obtain ⟨u, hcomp⟩ := h.write_completes hopen hmax v
  obtain ⟨t, ht, hpage, hphase⟩ := h.exec_completes hcomp
  obtain ⟨hcount, -⟩ := countAdvancesOrFaults s v h.err hconf hfin
  exact ⟨t, ht, hpage, hphase, hcount t ht hpage.err⟩

end

theorem UnboundedPage.finishes {s : State} (h : UnboundedPage s) (n : Nat) :
    ∃ t, execAll (List.replicate n .finish) s = .next t ∧ UnboundedPage t := by
  induction n generalizing s with
  | zero => exact ⟨s, rfl, h⟩
  | succ n ih =>
    obtain ⟨u, hcomp⟩ := h.finish_completes
    obtain ⟨v, hv, hpage, -⟩ := h.exec_completes hcomp
    rw [List.replicate_succ, execAll_cons_of_next hv]
    exact ih hpage

/-- A page's commands run while the count reckons with every one of them. -/
theorem UnboundedPage.pageCommands {s : State} {is : List Instr} (h : UnboundedPage s) (hopen : s.phase = .opened)
    (his : PageCommands is) (hcount : s.totalValueCount.toNat + is.length < 2 ^ 32) :
    ∃ t, execAll is s = .next t ∧ UnboundedPage t := by
  induction his generalizing s with
  | finishes n => exact h.finishes n
  | write v is _ ih =>
    rw [List.length_cons] at hcount
    obtain ⟨u, hu, hpage, hphase, htotal⟩ := h.exec_write hopen (by bv_omega) v
    rw [execAll_cons_of_next hu]
    exact ih hpage hphase (by omega)

theorem UnboundedPage.pages {s : State} {is : List Instr} (h : UnboundedPage s) (hopen : s.phase = .opened)
    (his : Pages is) (hcount : s.totalValueCount.toNat + is.length < 2 ^ 32) :
    ∃ t, execAll is s = .next t ∧ UnboundedPage t := by
  induction his generalizing s with
  | last is hpage => exact h.pageCommands hopen hpage hcount
  | more is js hpage _ ih =>
    rw [List.length_append, List.length_cons] at hcount
    obtain ⟨t, ht, hended⟩ := h.pageCommands hopen hpage (by omega)
    have hreset := Completes.reset (s := t) hended.configured
    rw [execAll_append_of_next ht, execAll_cons_of_next (hreset.exec_eq hended.err)]
    refine ih (hended.completes hreset _) (hreset.phase_eq hended.err) ?_
    have hcleared : t.clearPage.totalValueCount.toNat = 0 := rfl
    rw [State.withResponse_totalValueCount, hcleared]
    omega

/-- Settles O48: read off the phases, a run without a fault starts with a valid CONFIG and goes on as the grammar says;
and such a run keeps an unbounded page that opened with the count at 0. -/
theorem lifecycleGrammar : Obligations.LifecycleGrammar := by
  intro s h hphase
  obtain ⟨herr, hblank⟩ := (phase_eq_unconfigured s).mp hphase
  refine ⟨fun is t hne hrun ht => ?_, fun bs mc pages hvalid hpages hlen hmc hcap => ?_⟩
  · obtain ⟨i, is, rfl⟩ := List.exists_cons_of_ne_nil hne
    obtain ⟨-, u, v, hcomp, hv, hrest⟩ := execAll_cons_completes hrun ht
    have hruns := hcomp.runsIn_phase herr
    cases i with
    | config bs mc =>
      obtain ⟨hopened, -⟩ := grammar_of_execAll hrest ht
      have hpages := hopened (hv.trans (hcomp.phase_eq herr))
      cases hcomp with
      | config _ _ hconf hvalid => exact ⟨bs, mc, is, rfl, hvalid, hpages⟩
    | _ => simp [runsIn, hphase] at hruns
  · have hwf : (Instr.config bs mc).wellFormed = true := decide_eq_true hmc
    have hcomp := Completes.config bs mc hblank hvalid
    have hpage : UnboundedPage ((s.withConfig bs mc).clearPage.withResponse
        (answer (.command (.config bs mc)) (s.withConfig bs mc).clearPage)) :=
      ⟨(h.completes herr hwf hcomp).withResponse _, herr, rfl, hcap⟩
    have hcleared : (s.withConfig bs mc).clearPage.totalValueCount.toNat = 0 := rfl
    rw [execAll_cons_of_next (hcomp.exec_eq herr)]
    obtain ⟨t, ht, hended⟩ := hpage.pages (hcomp.phase_eq herr) hpages (by
      rw [State.withResponse_totalValueCount, hcleared, Nat.zero_add]
      exact hlen)
    exact ⟨t, ht, hended.err⟩

end Sys2Proof.Machine
end

section
/-! SUPPORT. The round trip (spec/20_memory.md R52): an open page holds the values written so far, as blocks that read
back and as pending deltas; WRITE keeps that, and FINISH turns it into a payload that reads back. -/

namespace Sys2Proof.Machine

/-! ### The consumer's sums -/

@[simp] theorem runningValues_length (x : Word) (ds : List Word) : (runningValues x ds).length = ds.length + 1 := by
  induction ds generalizing x with
  | nil => rfl
  | cons d ds ih => rw [runningValues, List.length_cons, ih, List.length_cons]

/-- One delta more is one value more, added to the last. -/
theorem runningValues_snoc (x d : Word) (ds : List Word) :
    runningValues x (ds ++ [d]) = runningValues x ds ++ [ds.foldl (· + ·) x + d] := by
  induction ds generalizing x with
  | nil => rfl
  | cons e ds ih => rw [List.cons_append, runningValues, ih, runningValues, List.cons_append, List.foldl_cons]

/-! ### The consumer's blocks -/

theorem readBlocks_none (bsize mc mbs fuel : Nat) (bs : List Byte) : readBlocks bsize mc mbs fuel 0 bs = some [] := by
  cases fuel with
  | zero => rfl
  | succ fuel => exact if_pos rfl

/-- A block of `n` deltas at the front is read first: a full one, or the last of the page. -/
theorem readBlocks_front {bsize mc mbs n k : Nat} {block rest : List Byte} {ds : List Word} (fuel : Nat) (hn : 0 < n)
    (hsize : n ≤ bsize) (hfull : n = bsize ∨ k = 0) (hread : readBlock n mc mbs (block ++ rest) = some (ds, rest)) :
    readBlocks bsize mc mbs (fuel + 1) (n + k) (block ++ rest) =
      (readBlocks bsize mc mbs fuel k rest).map (ds ++ ·) := by
  have hmin : min (n + k) bsize = n := by omega
  rw [readBlocks, if_neg (by omega), hmin, hread, Option.bind_some, Nat.add_sub_cancel_left]

/-- The bytes of `output_buffer` are `b` full blocks of these deltas, as the consumer reads them. -/
structure ReadsAsBlocks (s : State) (b : Nat) (ds : List Word) : Prop where
  length : ds.length = b * s.blockSize.toNat
  read : ∀ (fuel k : Nat) (rest : List Byte),
    readBlocks s.blockSize.toNat s.miniBlockCount.toNat s.miniBlockSize.toNat (b + fuel) (ds.length + k)
        (s.outputBuffer ++ rest) =
      (readBlocks s.blockSize.toNat s.miniBlockCount.toNat s.miniBlockSize.toNat fuel k rest).map (ds ++ ·)

theorem readsAsBlocks_empty {s : State} (hout : s.outputBuffer = []) : ReadsAsBlocks s 0 [] where
  length := by rw [Nat.zero_mul, List.length_nil]
  read fuel k rest := by
    rw [hout, Nat.zero_add, List.length_nil, Nat.zero_add, List.nil_append]
    cases readBlocks s.blockSize.toNat s.miniBlockCount.toNat s.miniBlockSize.toNat fuel k rest <;> rfl

/-- The deltas of the block that is open. -/
def pendingDeltas (s : State) : List Word := (List.range s.pendingCount.toNat).map s.pd.read

theorem pendingDeltas_length (s : State) : (pendingDeltas s).length = s.pendingCount.toNat := by
  rw [pendingDeltas, List.length_map, List.length_range]

section
variable {s u : State} {b : Nat} {ds : List Word}

/-- The flush of a full block adds it to the blocks. -/
theorem ReadsAsBlocks.afterFlush (h : ReadsAsBlocks s b ds) (hconf : ConfigInv s)
    (hfull : s.pendingCount.toNat = s.blockSize.toNat) :
    ReadsAsBlocks s.afterFlush (b + 1) (ds ++ pendingDeltas s) where
  length := by
    rw [List.length_append, h.length, pendingDeltas_length, hfull, Nat.succ_mul]
    rfl
  read fuel k rest := by
    have hfront := readBlocks_front (k := k) fuel (hfull ▸ hconf.blockSize_pos) hfull.le (.inl hfull)
      (readBlock_flushBytes hconf hfull.le rest)
    have hread := h.read (fuel + 1) (s.pendingCount.toNat + k) (flushBytes s ++ rest)
    rw [hfront] at hread
    rw [List.length_append, pendingDeltas_length, Nat.add_assoc b, Nat.add_comm 1 fuel, Nat.add_assoc ds.length,
      State.flushedWith_outputBuffer, List.append_assoc]
    refine hread.trans ?_
    rw [Option.map_map]
    simp only [Function.comp_def, List.append_assoc]
    rfl

theorem pendingDeltas_of_none (h : s.pendingCount = 0) : pendingDeltas s = [] := by
  rw [pendingDeltas, h]
  rfl

theorem pendingDeltas_recordDelta (v : Word) (hslot : s.pendingCount.toNat < s.blockSize.toNat) :
    pendingDeltas (s.recordDelta v) = pendingDeltas s ++ [delta s v] := by
  rw [pendingDeltas, pendingCount_recordDelta_toNat v hslot, List.range_succ, List.map_append, List.map_singleton,
    read_recordDelta, if_pos rfl, pendingDeltas]
  refine congrArg (· ++ [delta s v]) (List.map_congr_left fun j hj => ?_)
  rw [read_recordDelta, if_neg (List.mem_range.mp hj).ne]

/-! ### A page holds the values written -/

/-- The page's data: the values are the running sums of the flushed and the pending deltas, and the last is kept for the
next delta. -/
structure HoldsValues (s : State) (vs : List Word) : Prop where
  count : s.totalValueCount.toNat = vs.length
  data : vs ≠ [] → ∃ b ds, ReadsAsBlocks s b ds ∧ vs = runningValues s.firstValue (ds ++ pendingDeltas s) ∧
    s.previousValue = (ds ++ pendingDeltas s).foldl (· + ·) s.firstValue

variable {vs : List Word}

theorem HoldsValues.withResponse (h : HoldsValues s vs) (p : Option (List Byte)) :
    HoldsValues (s.withResponse p) vs where
  count := h.count
  data hne := by
    obtain ⟨b, ds, hblocks, hvalues, hprev⟩ := h.data hne
    exact ⟨b, ds, ⟨hblocks.length, hblocks.read⟩, hvalues, hprev⟩

theorem holdsValues_recordFirst (v : Word) (hnone : s.pendingCount = 0) (hout : s.outputBuffer = []) :
    HoldsValues (s.recordFirst v) [v] where
  count := rfl
  data _ := by
    have hpending : pendingDeltas (s.recordFirst v) = [] := pendingDeltas_of_none hnone
    exact ⟨0, [], readsAsBlocks_empty hout, by rw [hpending]; rfl, by rw [hpending]; rfl⟩

theorem HoldsValues.recordDelta (h : HoldsValues s vs) (v : Word) (hslot : s.pendingCount.toNat < s.blockSize.toNat)
    (hzero : s.totalValueCount ≠ 0) (hmax : s.totalValueCount ≠ 0xFFFFFFFF#32) :
    HoldsValues (s.recordDelta v) (vs ++ [v]) where
  count := by
    rw [State.recordDelta_totalValueCount, toNat_add_one_of_ne_max hmax, h.count, List.length_append,
      List.length_singleton]
  data _ := by
    have hne : vs ≠ [] := by
      rintro rfl
      exact hzero (BitVec.eq_of_toNat_eq h.count)
    obtain ⟨b, ds, hblocks, hvalues, hprev⟩ := h.data hne
    have hlast : s.previousValue + delta s v = v := add_sub_cancel _ _
    refine ⟨b, ds, ⟨hblocks.length, hblocks.read⟩, ?_, ?_⟩
    · rw [pendingDeltas_recordDelta v hslot, ← List.append_assoc, runningValues_snoc, State.recordDelta_firstValue,
        ← hvalues, ← hprev, hlast]
    · rw [pendingDeltas_recordDelta v hslot, ← List.append_assoc, List.foldl_append, State.recordDelta_firstValue,
        ← hprev]
      exact hlast.symm

theorem HoldsValues.afterFlush (h : HoldsValues s vs) (hconf : ConfigInv s)
    (hfull : s.pendingCount.toNat = s.blockSize.toNat) : HoldsValues s.afterFlush vs where
  count := h.count
  data hne := by
    obtain ⟨b, ds, hblocks, hvalues, hprev⟩ := h.data hne
    refine ⟨b + 1, ds ++ pendingDeltas s, hblocks.afterFlush hconf hfull, ?_, ?_⟩
    · rw [pendingDeltas_of_none (s := s.afterFlush) rfl, List.append_nil]
      exact hvalues
    · rw [pendingDeltas_of_none (s := s.afterFlush) rfl, List.append_nil]
      exact hprev

/-- Every WRITE that completes adds its value. -/
theorem HoldsValues.write (h : HoldsValues s vs) (hinv : StateInv s) (herr : s.err = 0) {v : Word}
    (hcomp : Completes s (.write v) u) : HoldsValues u (vs ++ [v]) := by
  cases hcomp with
  | first _ hconf hfin hzero =>
    obtain ⟨hnone, hout⟩ := (hinv.page herr hconf).emptyPage hzero
    have hempty : vs = [] := List.length_eq_zero_iff.mp (by rw [← h.count, hzero]; rfl)
    rw [hempty]
    exact holdsValues_recordFirst v hnone hout
  | record _ hconf hfin hzero hmax hroom => exact h.recordDelta v (by omega) hzero hmax
  | fill _ hconf hfin hzero hmax hfull hready hfits =>
    have hslot : s.pendingCount.toNat < s.blockSize.toNat := by omega
    exact (h.recordDelta v hslot hzero hmax).afterFlush ((hinv.config hconf).recordDelta v)
      ((pendingCount_recordDelta_toNat v hslot).trans hfull)

theorem Completes.payQueue_eq {i : Instr} (h : Completes s i u) : u.payQueue = s.payQueue := by
  cases h <;> rfl

end

/-- Writing values to an open page of an unbounded buffer. -/
theorem UnboundedPage.writes {s : State} (h : UnboundedPage s) (hopen : s.phase = .opened) {vs : List Word}
    (hvs : HoldsValues s vs) (ws : List Word) (hlen : vs.length + ws.length < 2 ^ 32) :
    ∃ t, execAll (writesOf ws) s = .next t ∧ UnboundedPage t ∧ t.phase = .opened ∧ HoldsValues t (vs ++ ws) ∧
      t.payQueue = s.payQueue := by
  induction ws generalizing s vs with
  | nil => exact ⟨s, rfl, h, hopen, by rwa [List.append_nil], rfl⟩
  | cons w ws ih =>
    rw [List.length_cons] at hlen
    have hmax : s.totalValueCount ≠ 0xFFFFFFFF#32 := by
      have hcount := hvs.count
      bv_omega
    obtain ⟨u, hcomp⟩ := h.write_completes hopen hmax w
    have hnext := hcomp.exec_eq h.err
    rw [answer_of_ne_finish (by nofun)] at hnext
    obtain ⟨t, ht, hpage, hphase, hvalues, hpay⟩ := ih (h.completes hcomp none) (hcomp.phase_eq h.err)
      ((hvs.write h.inv h.err hcomp).withResponse none) (by rw [List.length_append, List.length_singleton]; omega)
    refine ⟨t, (execAll_cons_of_next hnext).trans ht, hpage, hphase, ?_, ?_⟩
    · rwa [List.append_assoc, List.singleton_append] at hvalues
    · rw [hpay, State.withResponse_none]
      exact hcomp.payQueue_eq

/-! ### The payload of a page reads back -/

section
variable {s u : State} {b : Nat} {ds vs : List Word}

theorem readPage_payload_of_empty (hzero : s.totalValueCount = 0) : readPage (payload s) = some [] := by
  have hcount : s.totalValueCount.toNat = 0 := congrArg BitVec.toNat hzero
  simp only [readPage, payload_eq_append, readVarint_uvarint32, Option.bind_some]
  exact if_pos hcount

/-- The consumer's reading of a payload whose blocks read as `ds`. -/
theorem readPage_payload (hconf : ConfigInv s) (hzero : s.totalValueCount ≠ 0)
    (hread : readBlocks s.blockSize.toNat s.miniBlockCount.toNat s.miniBlockSize.toNat s.totalValueCount.toNat
      (s.totalValueCount.toNat - 1) s.outputBuffer = some ds) :
    readPage (payload s) = some (runningValues s.firstValue ds) := by
  simp only [readPage, payload_eq_append, readVarint_uvarint32, Option.bind_some, ← hconf.quotient]
  rw [if_neg (toNat_pos_of_ne_zero hzero).ne', hread, Option.map_some, BitVec.ofNat_toNat, BitVec.setWidth_eq]

/-- Full blocks alone, read with fuel for each of them. -/
theorem ReadsAsBlocks.read_full (h : ReadsAsBlocks s b ds) {fuel : Nat} (hfuel : b ≤ fuel) :
    readBlocks s.blockSize.toNat s.miniBlockCount.toNat s.miniBlockSize.toNat fuel ds.length s.outputBuffer =
      some ds := by
  have hread := h.read (fuel - b) 0 []
  rwa [Nat.add_sub_cancel' hfuel, Nat.add_zero, List.append_nil, readBlocks_none, Option.map_some,
    List.append_nil] at hread

/-- Full blocks and the block of the pending deltas. -/
theorem ReadsAsBlocks.read_flushed (h : ReadsAsBlocks s b ds) (hconf : ConfigInv s)
    (hpending : 0 < s.pendingCount.toNat) (hn : s.pendingCount.toNat ≤ s.blockSize.toNat)
    {fuel : Nat} (hfuel : b + 1 ≤ fuel) :
    readBlocks s.blockSize.toNat s.miniBlockCount.toNat s.miniBlockSize.toNat fuel (ds.length + s.pendingCount.toNat)
      (s.outputBuffer ++ flushBytes s) = some (ds ++ pendingDeltas s) := by
  have hlast := readBlock_flushBytes hconf hn []
  have hfront := readBlocks_front (k := 0) (fuel - (b + 1)) hpending hn (.inr rfl) hlast
  have hread := h.read (fuel - b) (s.pendingCount.toNat + 0) (flushBytes s ++ [])
  have hsucc : fuel - b = fuel - (b + 1) + 1 := by omega
  rw [hsucc, hfront, readBlocks_none, Option.map_some, Option.map_some, List.append_nil, List.append_nil, Nat.add_zero,
    ← hsucc, Nat.add_sub_cancel' (by omega)] at hread
  exact hread

/-- A block has at least one delta. -/
theorem ReadsAsBlocks.count_le (h : ReadsAsBlocks s b ds) (hconf : ConfigInv s) : b ≤ ds.length := by
  rw [h.length]
  exact Nat.le_mul_of_pos_right b hconf.blockSize_pos

/-- FINISH of an open page hands over a payload that reads as the values of the page. -/
theorem HoldsValues.readPage_finish (h : HoldsValues s vs) (hinv : StateInv s) (hopen : s.phase = .opened)
    (hcomp : Completes s .finish u) : readPage (payload u) = some vs := by
  obtain ⟨herr, hconf, hfin⟩ := (phase_eq_opened s).mp hopen
  have hcinv := hinv.config hconf
  have hpage := hinv.page herr hconf
  by_cases hzero : s.totalValueCount = 0
  · have hempty : vs = [] := List.length_eq_zero_iff.mp (by rw [← h.count, hzero]; rfl)
    have htotal : u.totalValueCount = 0 := by cases hcomp <;> exact hzero
    rw [readPage_payload_of_empty htotal, hempty]
  have hne : vs ≠ [] := by
    rintro rfl
    exact hzero (BitVec.eq_of_toNat_eq h.count)
  obtain ⟨b, ds, hblocks, hvalues, -⟩ := h.data hne
  have hle := hblocks.count_le hcinv
  have hcount : s.totalValueCount.toNat = ds.length + s.pendingCount.toNat + 1 := by
    rw [h.count, hvalues, runningValues_length, List.length_append, pendingDeltas_length]
  cases hcomp with
  | replay _ hclosed => exact absurd (hclosed.symm.trans hfin) (by decide)
  | close _ _ hnone =>
    have hpending : s.pendingCount.toNat = 0 := congrArg BitVec.toNat hnone
    have hread := hblocks.read_full (fuel := s.totalValueCount.toNat) (by omega)
    rw [pendingDeltas_of_none hnone, List.append_nil] at hvalues
    rw [hvalues]
    have hlen : s.totalValueCount.toNat - 1 = ds.length := by omega
    exact readPage_payload (s := s) hcinv hzero (by rwa [hlen])
  | flushClose _ _ hpending hready hfits =>
    have hsome := toNat_pos_of_ne_zero hpending
    have hread := hblocks.read_flushed hcinv hsome hpage.pendingBound.le (fuel := s.totalValueCount.toNat) (by omega)
    rw [hvalues]
    have hlen : s.totalValueCount.toNat - 1 = ds.length + s.pendingCount.toNat := by omega
    exact readPage_payload (s := s.afterFlush) (hcinv.of_same rfl ⟨rfl, rfl, rfl⟩) hzero (by
      rwa [State.flushedWith_totalValueCount, hlen])

end

/-- Settles O50: an empty page holds no values; the writes add theirs, and the FINISH after them hands over the payload
of the page that holds them. -/
theorem pageReadsBack : Obligations.PageReadsBack := by
  intro s vs h hopen hzero hcap hlen
  obtain ⟨herr, hconf, -⟩ := (phase_eq_opened s).mp hopen
  have hempty : HoldsValues s [] := ⟨congrArg BitVec.toNat hzero, fun hne => absurd rfl hne⟩
  obtain ⟨t, ht, hpage, hphase, hvalues, hpay⟩ :=
    UnboundedPage.writes ⟨h, herr, hconf, hcap⟩ hopen hempty vs (by rwa [List.length_nil, Nat.zero_add])
  obtain ⟨u, hcomp⟩ := hpage.finish_completes
  have herru := hcomp.err_eq.trans hpage.err
  refine ⟨t, u.withResponse (some (payload u)), payload u, ht, ?_, herru, ?_,
    hvalues.readPage_finish hpage.inv hphase hcomp⟩
  · rw [hcomp.exec_eq hpage.err, answer_finish herru]
  · rw [State.withResponse_payQueue, hcomp.payQueue_eq, hpay]
    rfl

end Sys2Proof.Machine
end
